-- ==== Sys2Proof/Word.lean ====
section
/-! DEFINITION. Words, bytes and the fixed-length operand types (spec/00_scope.md R6, R9, R10). -/

namespace Sys2Proof

/-- A word is 32 bits, unsigned; `+`, `-`, `*` on it are the `+32`, `-32`, `*32` of R11. -/
abbrev Word := BitVec 32

/-- A byte is 8 bits (R10). -/
abbrev Byte := BitVec 8

/-- The index of one of the 16 host slots (R50). -/
abbrev SlotIdx := BitVec 4

/-- R9: "A model represents Key as a vector of four 32-bit words". -/
abbrev Key := Vector Word 4

/-- R9: "and Block as a vector of two". -/
abbrev Block := Vector Word 2

end Sys2Proof
end

