-- ==== Sys2Proof/Syntax.lean ====
section
/-! DEFINITION. The commands (30_encoding.md R72). -/

namespace Sys2Proof

/-- The five commands. R70: "There is no register field, no immediate field, no mode field and no function field:
every operand is implicit (rule R73)", so no constructor has an argument. -/
inductive Instr where
  /-- NOP, R97 -/
  | nop
  /-- ENCRYPT, R120 -/
  | encrypt
  /-- DECRYPT, R121 -/
  | decrypt
  /-- TO_TOKEN, R135 -/
  | toToken
  /-- FROM_TOKEN, R136 -/
  | fromToken
deriving DecidableEq, Repr

end Sys2Proof
end

