-- ==== Sys2Proof/WellFormed.lean ====
section
/-! DEFINITION. What is checked of a command word's fields (30_encoding.md R70, R75) and of an instruction. -/

namespace Sys2Proof

/-- The two fields of the one command format `CMD` (R70). -/
structure CmdFields where
  /-- bits 31:3, `ZERO` -/
  zero : BitVec 29
  /-- bits 2:0, `OPC` -/
  opc : BitVec 3
deriving DecidableEq, Repr

/-- R70: `ZERO` "must be 0; any nonzero value makes the command reserved". -/
def CmdFields.zeroClear (f : CmdFields) : Bool := f.zero == 0#29

/-- R75: `OPC` 5, 6 and 7 are reserved. -/
def CmdFields.opcAssigned (f : CmdFields) : Bool := decide (f.opc.toNat ≤ 4)

/-- The fields of a command word that is not reserved. -/
def CmdFields.wellFormed (f : CmdFields) : Bool := f.zeroClear && f.opcAssigned

/-- R70: an instruction has no operand field, so no term of `Instr` is ill-formed; what can be ill-formed is a
command word, by its fields. -/
def Instr.wellFormed : Instr → Bool
  | .nop => true
  | .encrypt => true
  | .decrypt => true
  | .toToken => true
  | .fromToken => true

end Sys2Proof
end

