-- ==== Sys2Proof/Decode.lean ====
section
/-! DEFINITION. The decoder (30_encoding.md R71), total on every command word, and the encoder (R70, R72). -/

namespace Sys2Proof

/-- Why a command word is reserved (R75). -/
inductive ReservedCommand where
  /-- `ZERO` is not 0, whatever `OPC` is -/
  | zeroFieldSet
  /-- `ZERO` is 0 and `OPC` is 5, 6 or 7 -/
  | opcodeReserved
deriving DecidableEq, Repr

/-- What a command word decodes to (R71). -/
inductive Decoded where
  | instr (i : Instr)
  | reserved (why : ReservedCommand)
deriving DecidableEq, Repr

/-- R70: bits 31:3 and bits 2:0 of the command word. -/
def CmdFields.ofWord (c : Word) : CmdFields where
  zero := c.extractLsb' 3 29
  opc := c.extractLsb' 0 3

/-- `Decode` of R71: it looks at nothing but `c`. -/
def decode (c : Word) : Decoded :=
  if (CmdFields.ofWord c).zero = 0#29 then
    match (CmdFields.ofWord c).opc.toNat with
    | 0 => .instr .nop
    | 1 => .instr .encrypt
    | 2 => .instr .decrypt
    | 3 => .instr .toToken
    | 4 => .instr .fromToken
    | _ => .reserved .opcodeReserved
  else .reserved .zeroFieldSet

/-- The instruction, where the word is not reserved. -/
def Decoded.instr? : Decoded → Option Instr
  | .instr i => some i
  | .reserved _ => none

/-- The column `OPC` of R72. -/
def Instr.opcode : Instr → BitVec 3
  | .nop => 0#3
  | .encrypt => 1#3
  | .decrypt => 2#3
  | .toToken => 3#3
  | .fromToken => 4#3

/-- R70: the word of two fields, `ZERO` in the more significant position. -/
def CmdFields.toWord (f : CmdFields) : Word := f.zero ++ f.opc

/-- The command word of an instruction (R70, R72). -/
def encode (i : Instr) : Word := CmdFields.toWord ⟨0#29, i.opcode⟩

/-- The column `match` of R72. -/
def Instr.matchWord : Instr → Word
  | .nop => 0x00000000#32
  | .encrypt => 0x00000001#32
  | .decrypt => 0x00000002#32
  | .toToken => 0x00000003#32
  | .fromToken => 0x00000004#32

/-- The column `mask` of R72: every bit of the word is compared. -/
def Instr.maskWord : Instr → Word
  | .nop => 0xFFFFFFFF#32
  | .encrypt => 0xFFFFFFFF#32
  | .decrypt => 0xFFFFFFFF#32
  | .toToken => 0xFFFFFFFF#32
  | .fromToken => 0xFFFFFFFF#32

/-- The command word that `nbits` bits of the opcode table stand for (R77: a command is one 32-bit word; the bits
above `nbits` are 0). -/
def tableWord (nbits w : Nat) : Nat := w % 2 ^ nbits

/-- The instruction the decoder reads from a table word; none where it is reserved or does not fit a command word
(log 5). -/
def decodeTableWord (nbits w : Nat) : Option Instr :=
  if tableWord nbits w < 2 ^ 32 then (decode (BitVec.ofNat 32 (tableWord nbits w))).instr? else none

end Sys2Proof
end

