-- ==== Sys2Proof/Config.lean ====
section
/-! DEFINITION. The numeric literals of the spec (00_scope.md R6, 93_implementation_defined.md U9) and the one
free value (70_reset_and_hazards.md R170, U7). -/

namespace Sys2Proof

/-- The literals U9 asks a model to gather, so that a law that holds for all of them can be stated for all. -/
structure Params where
  /-- `DELTA` -/
  delta : Word
  /-- `CHK_MUL`, the checksum multiplier -/
  chkMul : Word
  /-- `CHK_ADD`, the checksum addend -/
  chkAdd : Word
  /-- `CODEC_ROUNDS` -/
  codecRounds : Word
  /-- the default round count, which is the reset value of `ROUNDS` -/
  defaultRounds : Word
deriving DecidableEq, Repr

/-- The values of R6, wired into the hardware (R74): no command and no register changes them. -/
def Config.params : Params where
  delta := 0x9E3779B9#32
  chkMul := 0x18BA3187#32
  chkAdd := 0x1AC2F23B#32
  codecRounds := 64#32
  defaultRounds := 64#32

/-- FREE VALUE (log 4): what `rdata` is in a cycle where reset is asserted. R170: "a read returns an unspecified
`rdata`". It has no body; the n-th such read of a run gets the n-th value. -/
opaque Config.freeRdata : Nat → Word

end Sys2Proof
end

