-- ==== Sys2Proof/Machine/State.lean ====
section
/-! DEFINITION. The state of the block (10_state.md R21), the outside world beside it, and the reset state (R36). -/

namespace Sys2Proof.Machine

/-- The position of the engine: `PHASE`, one bit (R30). -/
inductive Phase where
  | idle
  | run
deriving DecidableEq, Repr

/-- Every register of the block: the "Complete list of state" of R21, 13 words and 9 bits. -/
@[ext]
structure Regs where
  /-- `KEY[0..3]` (R22) -/
  key : Key
  /-- `BLK[0..1]` (R23) -/
  blk : Block
  /-- `ROUNDS` (R24) -/
  rounds : Word
  /-- `IDENT` (R25) -/
  ident : Word
  /-- `OP` (R27) -/
  op : BitVec 3
  /-- `BUSY` (R28) -/
  busy : Bool
  /-- `DONE` (R28) -/
  done : Bool
  /-- `CHK_OK` (R28) -/
  chkOk : Bool
  /-- `ERR_BUSY`, sticky (R28, R151) -/
  errBusy : Bool
  /-- `ERR_CMD`, sticky (R28, R151) -/
  errCmd : Bool
  /-- `RESULT` (R26) -/
  result : Word
  /-- `V0` (R31) -/
  v0 : Word
  /-- `V1` (R31) -/
  v1 : Word
  /-- `SUM` (R31) -/
  sum : Word
  /-- `ITER` (R31) -/
  iter : Word
  /-- `PHASE` (R30, R31) -/
  phase : Phase
deriving DecidableEq, Repr

/-- One transaction of the host port (R51): `HostRead(idx)` or `HostWrite(idx, v)`. The index is 4 bits, so every
one of them names a slot (R13, R60). -/
inductive Transaction where
  | read (idx : SlotIdx)
  | write (idx : SlotIdx) (v : Word)
deriving DecidableEq, Repr

/-- One transition the outside presents (log 1). R64: "An execution is therefore a single total order of atomic
transitions (host reads, host writes, engine steps)"; reset is one more (R170). -/
inductive Event where
  /-- a transaction of the host port -/
  | host (t : Transaction)
  /-- the engine takes its step, if it has one (R93) -/
  | engine
  /-- a cycle in which `rst` is asserted, with the transaction presented in it, if any (R170) -/
  | reset (presented : Option Transaction)
  /-- the host-script statement `wait` (R78): read STATUS until its bit 0 is 0 -/
  | wait
deriving DecidableEq, Repr

/-- What one read of the host returned (R78: "the script records the value returned"). -/
structure ReadRecord where
  idx : SlotIdx
  value : Word
deriving DecidableEq, Repr

/-- The block and the outside world. `script`, `observed` and `freeReads` are the MODEL's fields, not the spec's
(log 1, log 3, log 4). -/
@[ext]
structure State where
  /-- the block's registers -/
  regs : Regs
  /-- the transitions still to be presented, oldest first -/
  script : List Event
  /-- what the host's reads returned, newest first -/
  observed : List ReadRecord
  /-- how many values `Config.freeRdata` has supplied -/
  freeReads : Nat
deriving DecidableEq, Repr

/-- The reasons the machine stops. The block itself takes no trap (R150). -/
inductive Fault where
  /-- Raised by an engine step with `PHASE = RUN` and `OP` outside 1 to 4: R93's case split has no row for it, and
  by R37 (c) no reachable state is such a one. Safe (log 6). -/
  | engineWithoutOperation
deriving DecidableEq, Repr

/-- The reasons the model gives an instruction no meaning. -/
inductive Refusal where
  /-- Raised only by an arm of `exec` whose instruction has no meaning yet; this model has no such arm. Safe. -/
  | notModelled (mnemonic : String)
deriving DecidableEq, Repr

/-- The answer of one step. -/
abbrev Result := Host.Outcome State Fault Refusal

/-- The reset value of every register (R36): `ROUNDS` 64, everything else 0, `PHASE` `IDLE`. -/
def Regs.reset : Regs where
  key := #v[0#32, 0#32, 0#32, 0#32]
  blk := #v[0#32, 0#32]
  rounds := Config.params.defaultRounds
  ident := 0#32
  op := 0#3
  busy := false
  done := false
  chkOk := false
  errBusy := false
  errCmd := false
  result := 0#32
  v0 := 0#32
  v1 := 0#32
  sum := 0#32
  iter := 0#32
  phase := .idle

/-- The machine right after reset (R36): the outside has presented nothing and read nothing (log 3). -/
def State.reset : State where
  regs := Regs.reset
  script := []
  observed := []
  freeReads := 0

end Sys2Proof.Machine
end

