-- ==== Sys2Proof/Machine/Flags.lean ====
section
/-! DEFINITION. The flags: the STATUS word (10_state.md R28), the level outputs (60_exceptions.md R155) and the two
sticky error flags (R151). No arithmetic writes a flag (R29). -/

namespace Sys2Proof.Machine

/-- `zext_32` of a 1-bit flag (R13). -/
def flagWord (b : Bool) : Word := (BitVec.ofBool b).setWidth 32

/-- The word a read of STATUS returns (R28): `BUSY`, `DONE`, `CHK_OK`, `ERR_BUSY`, `ERR_CMD` in bits 0 to 4, bits
31:5 reading 0. -/
def statusWord (r : Regs) : Word :=
  flagWord r.busy ||| flagWord r.done <<< 1 ||| flagWord r.chkOk <<< 2 ||| flagWord r.errBusy <<< 3 |||
    flagWord r.errCmd <<< 4

/-- The output `busy_o` (R35, R155). -/
def busyOut (r : Regs) : Bool := r.busy

/-- The output `done_o` (R35, R155). -/
def doneOut (r : Regs) : Bool := r.done

/-- The first error condition of R151: a write to a slot in 0 to 8 while busy. -/
def Regs.flagBusyError (r : Regs) : Regs := { r with errBusy := true }

/-- The second error condition of R151: a reserved command while idle. -/
def Regs.flagCmdError (r : Regs) : Regs := { r with errCmd := true }

end Sys2Proof.Machine
end

