-- ==== Sys2Proof/Machine/Operands.lean ====
section
/-! DEFINITION. Operand forms: the key words an iteration selects (41_cipher.md R111), the byte views of key and
block (20_memory.md R56 to R58) and the byte offset of a slot (R13, R50). -/

namespace Sys2Proof.Machine

/-- `SelLo(s) = s[1:0]` (R111). -/
def selLo (s : Word) : BitVec 2 := s.extractLsb' 0 2

/-- `SelHi(s) = s[12:11]` (R111). -/
def selHi (s : Word) : BitVec 2 := s.extractLsb' 11 2

/-- The key word a 2-bit index selects; R111: "The index is always in 0..3, so the selection is total". -/
def keyWord (key : Key) (i : BitVec 2) : Word := key[i.toNat]'i.isLt

/-- `Unpack32` (R56): `b3 ++ b2 ++ b1 ++ b0`, the first byte of the buffer least significant. -/
def unpack32 (b : Vector Byte 4) : Word := b[3] ++ b[2] ++ b[1] ++ b[0]

/-- `Pack32` (R56): the bytes in buffer order. -/
def pack32 (w : Word) : Vector Byte 4 :=
  #v[w.extractLsb' 0 8, w.extractLsb' 8 8, w.extractLsb' 16 8, w.extractLsb' 24 8]

/-- The key registers of a 16-byte key: word `j` is bytes `4j` to `4j + 3` (R57, log 9). -/
def keyOfBytes (k : Vector Byte 16) : Key :=
  Vector.ofFn fun j : Fin 4 => unpack32 (Vector.ofFn fun m : Fin 4 => k[4 * j.val + m.val])

/-- The 16-byte key of the key registers: byte `i` is byte `i mod 4` of word `i / 4` (R57). -/
def keyToBytes (k : Key) : Vector Byte 16 :=
  Vector.ofFn fun i : Fin 16 => (pack32 (k[i.val / 4]))[i.val % 4]

/-- The block registers of an 8-byte block or token: word `j` is bytes `4j` to `4j + 3` (R58, log 9). -/
def blockOfBytes (b : Vector Byte 8) : Block :=
  Vector.ofFn fun j : Fin 2 => unpack32 (Vector.ofFn fun m : Fin 4 => b[4 * j.val + m.val])

/-- The 8-byte block or token of the block registers (R58). -/
def blockToBytes (b : Block) : Vector Byte 8 :=
  Vector.ofFn fun i : Fin 8 => (pack32 (b[i.val / 4]))[i.val % 4]

/-- The slot that an access of `n` bytes at byte offset `addr` names (R13, R50): only words at offsets 0, 4, …, 60
exist. -/
def slotOfOffset (addr n : Nat) : Option SlotIdx :=
  if n = 4 ∧ addr % 4 = 0 ∧ addr ≤ 60 then some (BitVec.ofNat 4 (addr / 4)) else none

end Sys2Proof.Machine
end

