-- ==== Sys2Proof/Machine/Ops.lean ====
section
/-! DEFINITION. The shared operations: reading and writing the register slots (20_memory.md R50, R53), a write while
busy (40_sequencer.md R92), acceptance (R91) and reset (70_reset_and_hazards.md R170). There is no trap entry and no
return from one in this hardware (60_exceptions.md R156, R157): what stands in for it is a sticky flag (R14). -/

namespace Sys2Proof.Machine

/-- The same outside world around other register values. -/
def State.withRegs (s : State) (r : Regs) : State := { s with regs := r }

/-- The same state with another list of transitions to come. -/
def State.withScript (s : State) (es : List Event) : State := { s with script := es }

/-- The host records what a read returned (R78). -/
def State.record (s : State) (idx : SlotIdx) (v : Word) : State :=
  { s with observed := ⟨idx, v⟩ :: s.observed }

/-- `HostRead(idx)`: the column "host read returns" of R50. -/
def hostRead (r : Regs) (idx : SlotIdx) : Word :=
  match idx.toNat with
  | 0 => r.key[0]
  | 1 => r.key[1]
  | 2 => r.key[2]
  | 3 => r.key[3]
  | 4 => r.blk[0]
  | 5 => r.blk[1]
  | 6 => r.rounds
  | 7 => r.ident
  | 8 => r.op.setWidth 32
  | 9 => statusWord r
  | 10 => r.result
  | _ => 0#32

/-- The data slots' rows of R53: the write stores all 32 bits. Every other slot stores nothing. -/
def Regs.writeData (r : Regs) (idx : SlotIdx) (v : Word) : Regs :=
  match idx.toNat with
  | 0 => { r with key := r.key.set 0 v }
  | 1 => { r with key := r.key.set 1 v }
  | 2 => { r with key := r.key.set 2 v }
  | 3 => { r with key := r.key.set 3 v }
  | 4 => { r with blk := r.blk.set 0 v }
  | 5 => { r with blk := r.blk.set 1 v }
  | 6 => { r with rounds := v }
  | 7 => { r with ident := v }
  | _ => r

/-- Acceptance (R91): the part common to the four operations, and the working registers as the operation loads
them. -/
def Regs.accept (r : Regs) (op : BitVec 3) (v0 v1 sum iter : Word) : Regs :=
  { r with
    op := op
    phase := .run
    busy := true
    done := false
    chkOk := false
    v0 := v0
    v1 := v1
    sum := sum
    iter := iter }

/-- A write to slots 0 to 8 while busy (R92): dropped, the value not examined. -/
def dropWrite (s : State) : Result := .next (s.withRegs s.regs.flagBusyError)

/-- A command's effect on the registers: what it does while idle (R90); while busy its write is a write while busy
(R76, R92). -/
def onIdle (s : State) (f : Regs → Regs) : Result :=
  if s.regs.busy then dropWrite s else .next (s.withRegs (f s.regs))

/-- A cycle in which `rst` is asserted (R170): every register takes its reset value, a write has no effect, and a
read returns an unspecified value (log 4). -/
def resetCycle (s : State) (presented : Option Transaction) : State :=
  match presented with
  | some (.read idx) =>
    { (s.withRegs Regs.reset).record idx (Config.freeRdata s.freeReads) with freeReads := s.freeReads + 1 }
  | some (.write _ _) => s.withRegs Regs.reset
  | none => s.withRegs Regs.reset

end Sys2Proof.Machine
end

