-- ==== Sys2Proof/Machine/Cipher.lean ====
section
/-! DEFINITION. The Block Cipher Engine (41_cipher.md): the round function, one iteration in each direction, the
whole transforms, and the meanings of ENCRYPT and DECRYPT. -/

namespace Sys2Proof.Machine

/-- The three words an iteration transforms (R113). -/
@[ext]
structure Working where
  v0 : Word
  v1 : Word
  sum : Word
deriving DecidableEq, Repr

/-- The mixing function of one half, `F` (R112); both shifts are logical (90_conflicts.md C1). -/
def mix (v : Word) : Word := ((v <<< 4) ^^^ (v >>> 5)) + v

/-- `EncIter` (R113): step 3 uses the new `v0'` and the new `sum'`. In `sum +32 DELTA` the constant is written
first, as in `chk`. -/
def encIter (p : Params) (key : Key) (w : Working) : Working :=
  let v0' := w.v0 + (mix w.v1 ^^^ (w.sum + keyWord key (selLo w.sum)))
  let sum' := p.delta + w.sum
  let v1' := w.v1 + (mix v0' ^^^ (sum' + keyWord key (selHi sum')))
  ⟨v0', v1', sum'⟩

/-- `DecIter` (R114): step 1' uses the new `v1'` and the new `sum'`. -/
def decIter (p : Params) (key : Key) (w : Working) : Working :=
  let v1' := w.v1 - (mix w.v0 ^^^ (w.sum + keyWord key (selHi w.sum)))
  let sum' := w.sum - p.delta
  let v0' := w.v0 - (mix v1' ^^^ (sum' + keyWord key (selLo sum')))
  ⟨v0', v1', sum'⟩

/-- `n` times `EncIter`, from `sum = 0` (R115). -/
def encWork (p : Params) (v0 v1 : Word) (key : Key) (n : Nat) : Working :=
  (encIter p key)^[n] ⟨v0, v1, 0#32⟩

/-- `n` times `DecIter`, from `sum = (n * DELTA) mod 2^32` (R116). -/
def decWork (p : Params) (v0 v1 : Word) (key : Key) (n : Nat) : Working :=
  (decIter p key)^[n] ⟨v0, v1, BitVec.ofNat 32 n * p.delta⟩

/-- `Encrypt(v0, v1, key, n)` (R115). -/
def encrypt (p : Params) (v0 v1 : Word) (key : Key) (n : Nat) : Word × Word :=
  ((encWork p v0 v1 key n).v0, (encWork p v0 v1 key n).v1)

/-- `Decrypt(v0, v1, key, n)` (R116). -/
def decrypt (p : Params) (v0 v1 : Word) (key : Key) (n : Nat) : Word × Word :=
  ((decWork p v0 v1 key n).v0, (decWork p v0 v1 key n).v1)

/-- ENCRYPT (R120): its acceptance, row 1 of R91. -/
def execEncrypt (s : State) : Result :=
  onIdle s fun r => r.accept 1#3 r.blk[0] r.blk[1] 0#32 r.rounds

/-- DECRYPT (R121): its acceptance, row 2 of R91. -/
def execDecrypt (s : State) : Result :=
  onIdle s fun r => r.accept 2#3 r.blk[0] r.blk[1] (r.rounds * Config.params.delta) r.rounds

end Sys2Proof.Machine
end

