-- ==== Sys2Proof/Machine/Codec.lean ====
section
/-! DEFINITION. The Identifier Codec (42_codec.md): the checksum, the two whole transforms, and the meanings of
TO_TOKEN and FROM_TOKEN. The identifier is the word `v0`, its checksum `v1` (R134). -/

namespace Sys2Proof.Machine

/-- `Chk(id) = (CHK_MUL *32 id) +32 CHK_ADD` (R130). The constant addend is written first (a wrapping sum has no
order), so that the kernel never unfolds it digit by digit; `chk_eq` has the rule's order. -/
def chk (p : Params) (id : Word) : Word := p.chkAdd + p.chkMul * id

/-- `ToToken(id, key)` (R131). -/
def toToken (p : Params) (id : Word) (key : Key) : Word × Word :=
  encrypt p id (chk p id) key p.codecRounds.toNat

/-- The comparison of R132, on the decrypted words: equality of all 32 bits. -/
def checksumOk (p : Params) (p0 p1 : Word) : Bool := decide (chk p p0 = p1)

/-- The returned word of R132, on the decrypted words: the sentinel 0 on a mismatch. -/
def recoveredId (p : Params) (p0 p1 : Word) : Word := if checksumOk p p0 p1 then p0 else 0#32

/-- `FromToken(t0, t1, key)` (R132). -/
def fromToken (p : Params) (t0 t1 : Word) (key : Key) : Word × Bool :=
  (recoveredId p (decrypt p t0 t1 key p.codecRounds.toNat).1 (decrypt p t0 t1 key p.codecRounds.toNat).2,
    checksumOk p (decrypt p t0 t1 key p.codecRounds.toNat).1 (decrypt p t0 t1 key p.codecRounds.toNat).2)

/-- TO_TOKEN (R135): its acceptance, row 3 of R91. -/
def execToToken (s : State) : Result :=
  onIdle s fun r => r.accept 3#3 r.ident (chk Config.params r.ident) 0#32 Config.params.codecRounds

/-- FROM_TOKEN (R136): its acceptance, row 4 of R91; the first `SUM` is `64 *32 DELTA` (log 8). -/
def execFromToken (s : State) : Result :=
  onIdle s fun r =>
    r.accept 4#3 r.blk[0] r.blk[1] (Config.params.codecRounds * Config.params.delta) Config.params.codecRounds

end Sys2Proof.Machine
end

