-- ==== Sys2Proof/Machine/Sequencer.lean ====
section
/-! DEFINITION. The sequencer (40_sequencer.md): the meaning of NOP (R97) and the engine's steps (R93, R95, R117,
R118). -/

namespace Sys2Proof.Machine

/-- NOP (R97): the empty transition while idle. -/
def execNop (s : State) : Result := onIdle s id

/-- The four operations an engine step can belong to. -/
inductive Operation where
  | encrypt
  | decrypt
  | toToken
  | fromToken
deriving DecidableEq, Repr

/-- The operation that `OP` names (R27, R72); none for 0, 5, 6 and 7. -/
def Operation.ofOp (op : BitVec 3) : Option Operation :=
  match op.toNat with
  | 1 => some .encrypt
  | 2 => some .decrypt
  | 3 => some .toToken
  | 4 => some .fromToken
  | _ => none

/-- The iteration of the operation's direction (R93): 1 and 3 encrypt, 2 and 4 decrypt. -/
def Operation.iteration (o : Operation) (p : Params) (key : Key) : Working → Working :=
  match o with
  | .encrypt => encIter p key
  | .decrypt => decIter p key
  | .toToken => encIter p key
  | .fromToken => decIter p key

/-- The working words of the registers. -/
def Regs.working (r : Regs) : Working := ⟨r.v0, r.v1, r.sum⟩

/-- An iteration step (R117, R118): the three working words, and `ITER <- ITER -32 1`. The key is read from `KEY` at
this step (R22, R73, R117, R118), where R61 has it read only at acceptance: the model's reading of the two (log 16,
DEDUCED). -/
def Regs.iterate (r : Regs) (o : Operation) : Regs :=
  { r with
    v0 := (o.iteration Config.params r.key r.working).v0
    v1 := (o.iteration Config.params r.key r.working).v1
    sum := (o.iteration Config.params r.key r.working).sum
    iter := r.iter - 1#32 }

/-- What the finish step delivers (R95): `BLK` for operations 1 to 3, `RESULT` and `CHK_OK` for operation 4. -/
def Regs.deliver (r : Regs) (o : Operation) : Regs :=
  match o with
  | .encrypt => { r with blk := #v[r.v0, r.v1] }
  | .decrypt => { r with blk := #v[r.v0, r.v1] }
  | .toToken => { r with blk := #v[r.v0, r.v1] }
  | .fromToken =>
    { r with
      result := recoveredId Config.params r.v0 r.v1
      chkOk := checksumOk Config.params r.v0 r.v1 }

/-- The finish step (R95). -/
def Regs.finish (r : Regs) (o : Operation) : Regs :=
  { r.deliver o with phase := .idle, busy := false, done := true }

/-- The engine's step while `PHASE = RUN` (R93). -/
def Regs.advance (r : Regs) (o : Operation) : Regs :=
  if r.iter = 0#32 then r.finish o else r.iterate o

/-- The engine's turn (R93): it has a step if and only if `PHASE = RUN`; while `PHASE = IDLE` nothing changes. -/
def engineStep (s : State) : Result :=
  match s.regs.phase with
  | .idle => .next s
  | .run =>
    match Operation.ofOp s.regs.op with
    | some o => .next (s.withRegs (s.regs.advance o))
    | none => .fault .engineWithoutOperation

end Sys2Proof.Machine
end

