-- ==== Sys2Proof/Machine/Dispatch.lean ====
section
/-! DEFINITION. One arm per command: what a write of its command word to slot 8 does (40_sequencer.md R90, R92). -/

namespace Sys2Proof.Machine

def exec (i : Instr) (s : State) : Host.Outcome State Fault Refusal :=
  match i with
  | .nop => Sys2Proof.Machine.execNop s
  | .encrypt => Sys2Proof.Machine.execEncrypt s
  | .decrypt => Sys2Proof.Machine.execDecrypt s
  | .toToken => Sys2Proof.Machine.execToToken s
  | .fromToken => Sys2Proof.Machine.execFromToken s

end Sys2Proof.Machine
end

