-- ==== Sys2Proof/Machine/HostPort.lean ====
section
/-! DEFINITION. The host port (20_memory.md R51 to R53): host writes, the transitions the outside presents, and the
signals of one clock cycle. -/

namespace Sys2Proof.Machine

/-- A write to CMD while idle (R90): a reserved command sets `ERR_CMD` and changes nothing else. -/
def commandWrite (c : Word) (s : State) : Result :=
  match decode c with
  | .instr i => exec i s
  | .reserved _ => .next (s.withRegs s.regs.flagCmdError)

/-- `HostWrite(idx, v)` in every state (R53, R90, R92). The busy check comes before the decode (R153 (a)); slots 9
to 15 ignore every write. -/
def hostWrite (idx : SlotIdx) (v : Word) (s : State) : Result :=
  if idx.toNat ≤ 8 then
    if s.regs.busy then dropWrite s
    else if idx = 8#4 then commandWrite v s
    else .next (s.withRegs (s.regs.writeData idx v))
  else .next s

/-- One transaction: a read returns a value, which the host records, and changes no register (R51, R52). -/
def transact (t : Transaction) (s : State) : Result :=
  match t with
  | .read idx => .next (s.record idx (hostRead s.regs idx))
  | .write idx v => hostWrite idx v s

/-- The statement `wait` (R78): read STATUS; while the value read has bit 0 set, the engine takes a step and the
read is repeated (log 7). -/
def poll (s : State) : Result :=
  if (hostRead s.regs 9#4)[0] then
    .next ((s.record 9#4 (hostRead s.regs 9#4)).withScript (.engine :: .wait :: s.script))
  else .next (s.record 9#4 (hostRead s.regs 9#4))

/-- One transition of the outside's list, taken in a state from whose list it has been removed. -/
def runEvent (e : Event) (s : State) : Result :=
  match e with
  | .host t => transact t s
  | .engine => engineStep s
  | .reset presented => .next (resetCycle s presented)
  | .wait => poll s

/-- The input signals of one clock cycle (R51, R170). -/
structure PortSignals where
  rst : Bool
  req : Bool
  we : Bool
  idx : SlotIdx
  wdata : Word
deriving DecidableEq, Repr

/-- The transaction the signals present (R51): one at most, a write where `we` is 1. -/
def PortSignals.transaction (p : PortSignals) : Option Transaction :=
  if p.req then some (if p.we then .write p.idx p.wdata else .read p.idx) else none

/-- The transitions of one clock cycle in their order: reset has priority over everything (R153 (c), R170); else the
host transaction comes before the engine step, where the engine takes one in that cycle (R64, R153 (b)). -/
def PortSignals.events (p : PortSignals) (engineSteps : Bool) : List Event :=
  if p.rst then [.reset p.transaction]
  else p.transaction.toList.map .host ++ (if engineSteps then [.engine] else [])

end Sys2Proof.Machine
end

