-- ==== Sys2Proof/Machine/Script.lean ====
section
/-! DEFINITION. The host-script notation (30_encoding.md R78) and the four pseudo-instructions (R79). -/

namespace Sys2Proof.Machine

/-- The slot names of R50 that a host script may use (R78); `number` is a slot given by its number, as program P3 of
95_test_vectors.md has it (`wr 12`). -/
inductive SlotName where
  | KEY0 | KEY1 | KEY2 | KEY3 | BLK0 | BLK1 | ROUNDS | IDENT | CMD | STATUS | RESULT
  | number (idx : SlotIdx)
deriving DecidableEq, Repr

/-- `idx(NAME)` (R50, R78). -/
def SlotName.idx : SlotName → SlotIdx
  | .KEY0 => 0#4
  | .KEY1 => 1#4
  | .KEY2 => 2#4
  | .KEY3 => 3#4
  | .BLK0 => 4#4
  | .BLK1 => 5#4
  | .ROUNDS => 6#4
  | .IDENT => 7#4
  | .CMD => 8#4
  | .STATUS => 9#4
  | .RESULT => 10#4
  | .number idx => idx

/-- The statements of R78. -/
inductive Statement where
  | wr (slot : SlotName) (value : Word)
  | rd (slot : SlotName)
  | wait
  | step (k : Nat)
deriving DecidableEq, Repr

/-- The transitions a statement presents (R78). -/
def Statement.events : Statement → List Event
  | .wr slot v => [.host (.write slot.idx v)]
  | .rd slot => [.host (.read slot.idx)]
  | .wait => [.wait]
  | .step k => List.replicate k .engine

/-- The transitions of a host script, statement after statement. -/
def scriptEvents (script : List Statement) : List Event := script.flatMap Statement.events

/-- The transaction as the 37-bit tuple `(we, idx, wdata)` (R78), `we` most significant (log 5); a read leaves
`wdata` to whatever the lines carry. -/
def Transaction.tuple (t : Transaction) (lines : Word) : BitVec 37 :=
  match t with
  | .read idx => 0#1 ++ idx ++ lines
  | .write idx v => 1#1 ++ idx ++ v

/-- The transaction a tuple stands for. -/
def Transaction.ofTuple (b : BitVec 37) : Transaction :=
  if b.getLsbD 36 then .write (b.extractLsb' 32 4) (b.extractLsb' 0 32) else .read (b.extractLsb' 32 4)

/-- The four writes of the key that every expansion of R79 begins with. -/
def writeKey (k : Key) : List Statement :=
  [.wr .KEY0 k[0], .wr .KEY1 k[1], .wr .KEY2 k[2], .wr .KEY3 k[3]]

/-- `encrypt(block, key, rounds)` of R79. -/
def callEncrypt (b : Block) (k : Key) (rounds : Word) : List Statement :=
  writeKey k ++
    [.wr .BLK0 b[0], .wr .BLK1 b[1], .wr .ROUNDS rounds, .wr .CMD (encode .encrypt), .wait, .rd .BLK0, .rd .BLK1]

/-- `decrypt(block, key, rounds)` of R79. -/
def callDecrypt (b : Block) (k : Key) (rounds : Word) : List Statement :=
  writeKey k ++
    [.wr .BLK0 b[0], .wr .BLK1 b[1], .wr .ROUNDS rounds, .wr .CMD (encode .decrypt), .wait, .rd .BLK0, .rd .BLK1]

/-- `to_token(identifier, key)` of R79. -/
def callToToken (id : Word) (k : Key) : List Statement :=
  writeKey k ++ [.wr .IDENT id, .wr .CMD (encode .toToken), .wait, .rd .BLK0, .rd .BLK1]

/-- `from_token(token, key)` of R79. -/
def callFromToken (t : Block) (k : Key) : List Statement :=
  writeKey k ++
    [.wr .BLK0 t[0], .wr .BLK1 t[1], .wr .CMD (encode .fromToken), .wait, .rd .RESULT, .rd .STATUS]

end Sys2Proof.Machine
end

