-- ==== Sys2Proof/Machine/Step.lean ====
section
/-! DEFINITION. One step of the machine: the next transition the outside presents, or, where it presents none, the
engine's turn (20_memory.md R64, 40_sequencer.md R93, 70_reset_and_hazards.md R184; log 1, log 2). -/

namespace Sys2Proof.Machine

/-- One atomic transition. -/
def step (s : State) : Host.Outcome State Fault Refusal :=
  match s.script with
  | [] => engineStep s
  | e :: rest => runEvent e (s.withScript rest)

/-- The state in which the next transition is the host's write of a command word to CMD: the word of `nbits` bits of
the opcode table, every bit above them 0 (R70; log 5). -/
def State.withFetchWord (s : State) (nbits w : Nat) : State :=
  s.withScript (.host (.write 8#4 (BitVec.ofNat 32 (tableWord nbits w))) :: s.script)

end Sys2Proof.Machine
end

