-- ==== Sys2Proof/Machine/BigStep.lean ====
section
/-! DEFINITION. The big-step view of an operation (40_sequencer.md R96, R98): how many iterations it takes and what
the registers hold after its finish step. The machine does not use it; claims compare the machine with it. -/

namespace Sys2Proof.Machine

/-- The iteration count `n` an accepted command runs with (R73, R96); NOP starts nothing. -/
def iterations (i : Instr) (r : Regs) : Nat :=
  match i with
  | .nop => 0
  | .encrypt => r.rounds.toNat
  | .decrypt => r.rounds.toNat
  | .toToken => Config.params.codecRounds.toNat
  | .fromToken => Config.params.codecRounds.toNat

/-- The registers after an operation's finish step, but for what it delivers: R98's columns `OP`, `DONE`, `BUSY`, and
the working registers, which keep their final values (R31). -/
def Regs.finished (r : Regs) (op : BitVec 3) (w : Working) : Regs :=
  { r with
    op := op
    phase := .idle
    busy := false
    done := true
    chkOk := false
    v0 := w.v0
    v1 := w.v1
    sum := w.sum
    iter := 0#32 }

/-- The table of R98: the registers after the operation, from the registers it was accepted in. -/
def bigStep (i : Instr) (r : Regs) : Regs :=
  match i with
  | .nop => r
  | .encrypt =>
    { r.finished 1#3 (encWork Config.params r.blk[0] r.blk[1] r.key r.rounds.toNat) with
      blk := #v[(encrypt Config.params r.blk[0] r.blk[1] r.key r.rounds.toNat).1,
        (encrypt Config.params r.blk[0] r.blk[1] r.key r.rounds.toNat).2] }
  | .decrypt =>
    { r.finished 2#3 (decWork Config.params r.blk[0] r.blk[1] r.key r.rounds.toNat) with
      blk := #v[(decrypt Config.params r.blk[0] r.blk[1] r.key r.rounds.toNat).1,
        (decrypt Config.params r.blk[0] r.blk[1] r.key r.rounds.toNat).2] }
  | .toToken =>
    { r.finished 3#3
        (encWork Config.params r.ident (chk Config.params r.ident) r.key Config.params.codecRounds.toNat) with
      blk := #v[(toToken Config.params r.ident r.key).1, (toToken Config.params r.ident r.key).2] }
  | .fromToken =>
    { r.finished 4#3 (decWork Config.params r.blk[0] r.blk[1] r.key Config.params.codecRounds.toNat) with
      result := (fromToken Config.params r.blk[0] r.blk[1] r.key).1
      chkOk := (fromToken Config.params r.blk[0] r.blk[1] r.key).2 }

end Sys2Proof.Machine
end

