-- ==== Sys2Proof/Safety.lean ====
section
/-! DEFINITION. The terms claims use: runs of several steps, the invariants of the registers (10_state.md R37, R29,
41_cipher.md R115, R116), what a transition is, and the host's usage rules (70_reset_and_hazards.md R178, R180). -/

namespace Sys2Proof.Machine

/-- `k` steps, stopping at the first that does not answer a next state. -/
def stepN : Nat → State → Result
  | 0, s => .next s
  | k + 1, s =>
    match step s with
    | .next t => stepN k t
    | .fault f => .fault f
    | .refused f => .refused f

/-- R37 (a) to (f), and R29: "`DONE = 0, BUSY = 0` holds only between reset and the first accepted non-NOP
command", when `OP` is 0. -/
structure Regs.Inv (r : Regs) : Prop where
  /-- (a) -/
  busy_iff_run : r.busy = true ↔ r.phase = .run
  /-- (b) -/
  not_busy_and_done : ¬(r.busy = true ∧ r.done = true)
  /-- (c), first half -/
  op_le : r.op.toNat ≤ 4
  /-- (c), second half -/
  op_zero : r.op = 0#3 → r.busy = false ∧ r.done = false
  /-- (d) -/
  chkOk_done : r.chkOk = true → r.done = true ∧ r.op = 4#3
  /-- (e) -/
  codec_iter : r.phase = .run → r.op = 3#3 ∨ r.op = 4#3 → r.iter.toNat ≤ 64
  /-- (f) -/
  cipher_iter : r.phase = .run → r.op = 1#3 ∨ r.op = 2#3 → r.iter.toNat ≤ r.rounds.toNat
  /-- R29 -/
  quiet_op : r.busy = false → r.done = false → r.op = 0#3

/-- The accumulator while an operation runs: after `i` of `n` iterations, `i *32 DELTA` in the encrypt direction
(R115) and, counting down, `(n - i) *32 DELTA` in the decrypt direction (R116). -/
structure Regs.SumInv (r : Regs) : Prop where
  encrypt_sum : r.phase = .run → r.op = 1#3 → r.sum = (r.rounds - r.iter) * Config.params.delta
  toToken_sum : r.phase = .run → r.op = 3#3 → r.sum = (Config.params.codecRounds - r.iter) * Config.params.delta
  decrypt_sum : r.phase = .run → r.op = 2#3 ∨ r.op = 4#3 → r.sum = r.iter * Config.params.delta

/-- How many engine steps remain before the engine is idle (R96). -/
def Regs.remaining (r : Regs) : Nat :=
  match r.phase with
  | .idle => 0
  | .run => r.iter.toNat + 1

/-- A transition that is not a reset. -/
def Event.notReset : Event → Bool
  | .host _ => true
  | .engine => true
  | .reset _ => false
  | .wait => true

/-- A host transaction or an engine step: what R98 lets interleave. -/
def Event.isPlain : Event → Bool
  | .host _ => true
  | .engine => true
  | .reset _ => false
  | .wait => false

/-- A host write to a slot in 0 to 8, which is dropped while busy (R92). -/
def Event.writesSlot0to8 : Event → Bool
  | .host (.write idx _) => decide (idx.toNat ≤ 8)
  | .host (.read _) => false
  | .engine => false
  | .reset _ => false
  | .wait => false

/-- The next transition is the first error condition of R151: a write to a slot in 0 to 8 while busy. -/
def State.busyMisuse (s : State) : Bool :=
  match s.script with
  | e :: _ => e.writesSlot0to8 && s.regs.busy
  | [] => false

/-- The next transition is the second error condition of R151: a reserved command written to slot 8 while idle. -/
def State.cmdMisuse (s : State) : Bool :=
  match s.script with
  | .host (.write idx c) :: _ => !s.regs.busy && decide (idx = 8#4) && (decode c).instr?.isNone
  | _ => false

/-- The next transition is a cycle in which `rst` is asserted. -/
def State.resetNext (s : State) : Bool :=
  match s.script with
  | e :: _ => !e.notReset
  | [] => false

/-- The next transition is a host write to slot `idx` that is not dropped: the block is idle. -/
def State.writesIdle (s : State) (idx : SlotIdx) : Bool :=
  match s.script with
  | .host (.write j _) :: _ => decide (j = idx) && !s.regs.busy
  | _ => false

/-- The next transition is the engine's: it is listed next, or nothing is listed. -/
def State.engineNext (s : State) : Bool :=
  match s.script with
  | [] => true
  | .engine :: _ => true
  | _ => false

/-- The next transition is the acceptance of a command (R91): a non-NOP command written to slot 8 while idle. -/
def State.acceptsNext (s : State) : Bool :=
  match s.script with
  | .host (.write idx c) :: _ =>
    !s.regs.busy && decide (idx = 8#4) && (decode c).instr?.isSome && decide (decode c ≠ .instr .nop)
  | _ => false

/-- The next transition is the finish step (R95). -/
def State.finishNext (s : State) : Bool :=
  s.engineNext && decide (s.regs.phase = .run) && decide (s.regs.iter = 0#32)

/-- The next transition is an iteration step (R117, R118). -/
def State.iteratesNext (s : State) : Bool :=
  s.engineNext && decide (s.regs.phase = .run) && decide (s.regs.iter ≠ 0#32)

/-- The part of the registers that says where the block stands: what R96 and R185 say no key, block or identifier
influences. -/
structure Regs.SameControl (r q : Regs) : Prop where
  op : r.op = q.op
  phase : r.phase = q.phase
  busy : r.busy = q.busy
  done : r.done = q.done
  iter : r.iter = q.iter
  rounds : r.rounds = q.rounds
  errBusy : r.errBusy = q.errBusy
  errCmd : r.errCmd = q.errCmd

end Sys2Proof.Machine
end

