-- ==== Sys2Proof/Certificates/Slice0/Obligations.lean ====
section
/-! DEFINITION. The statements for the provers. Each docstring names the rule of spec/ it formalises. -/

open Sys2Proof Sys2Proof.Machine

/-! ### Reset, invariants, and what a step can do -/

/-- R36: the value of every piece of state after reset; the table of R21 has no other row. -/
def Obligations.ResetValuesOfEveryRegister : Prop :=
  State.reset.regs.key = #v[0#32, 0#32, 0#32, 0#32] ∧ State.reset.regs.blk = #v[0#32, 0#32] ∧
  State.reset.regs.rounds = 64#32 ∧ State.reset.regs.ident = 0#32 ∧ State.reset.regs.result = 0#32 ∧
  State.reset.regs.op = 0#3 ∧ State.reset.regs.busy = false ∧ State.reset.regs.done = false ∧
  State.reset.regs.chkOk = false ∧ State.reset.regs.errBusy = false ∧ State.reset.regs.errCmd = false ∧
  State.reset.regs.v0 = 0#32 ∧ State.reset.regs.v1 = 0#32 ∧ State.reset.regs.sum = 0#32 ∧
  State.reset.regs.iter = 0#32 ∧ State.reset.regs.phase = .idle

/-- R37 (a) to (f), R29 and the accumulator's relation hold right after reset. -/
def Obligations.ResetStateMeetsInvariants : Prop :=
  State.reset.regs.Inv ∧ State.reset.regs.SumInv

/-- R37 (a) to (f) and R29 are kept by every step, from every state that meets them; R37 (g): an error flag that is
1 stays 1 unless the step is a reset cycle. -/
def Obligations.EveryStepKeepsInvariant : Prop :=
  ∀ s t : State, s.regs.Inv → step s = .next t →
    t.regs.Inv ∧
    (s.resetNext = false →
      (s.regs.errBusy = true → t.regs.errBusy = true) ∧ (s.regs.errCmd = true → t.regs.errCmd = true))

/-- R115, R116: while an operation runs, `SUM` is the accumulator of exactly the iterations taken. -/
def Obligations.EveryStepKeepsAccumulatorInStep : Prop :=
  ∀ s t : State, s.regs.Inv → s.regs.SumInv → step s = .next t → t.regs.SumInv

/-- R150, R152: from a state that meets the invariant no step faults and none is refused, whatever the outside
presents next. -/
def Obligations.NoStepStopsUnderInvariant : Prop :=
  ∀ s : State, s.regs.Inv → ∃ t, step s = .next t

/-- R170, R171: a cycle with `rst` asserted gives the reset values from every state, an operation in progress
included; a write presented in it has no effect, and a read in it returns some value, which R170 leaves
unspecified. -/
def Obligations.ResetCycleFromEveryState : Prop :=
  ∀ (s : State) (p : Option Transaction) (rest : List Event), s.script = .reset p :: rest →
    ∃ t, step s = .next t ∧ t.script = rest ∧
      t.regs.key = #v[0#32, 0#32, 0#32, 0#32] ∧ t.regs.blk = #v[0#32, 0#32] ∧ t.regs.rounds = 64#32 ∧
      t.regs.ident = 0#32 ∧ t.regs.result = 0#32 ∧ t.regs.op = 0#3 ∧ t.regs.busy = false ∧
      t.regs.done = false ∧ t.regs.chkOk = false ∧ t.regs.errBusy = false ∧ t.regs.errCmd = false ∧
      t.regs.v0 = 0#32 ∧ t.regs.v1 = 0#32 ∧ t.regs.sum = 0#32 ∧ t.regs.iter = 0#32 ∧ t.regs.phase = .idle ∧
      ((∀ idx, p ≠ some (.read idx)) → t.observed = s.observed) ∧
      (∀ idx, p = some (.read idx) → ∃ v, t.observed = ⟨idx, v⟩ :: s.observed)

/-- R96, R171: an operation in progress ends only by its finish step, taken with `ITER = 0`, or by reset. -/
def Obligations.OperationEndsOnlyByFinishOrReset : Prop :=
  ∀ s t : State, step s = .next t → s.regs.busy = true → t.regs.busy = false →
    s.resetNext = true ∨ (s.finishNext = true ∧ t.regs.done = true)

/-- What one step does next (log 1, log 2): the first transition listed, or the engine's turn where none is. -/
def Obligations.StepTakesNextListedTransition : Prop :=
  ∀ (s : State) (rest : List Event),
    (s.script = [] → step s = engineStep s) ∧
    (s.script = .engine :: rest → step s = engineStep (s.withScript rest)) ∧
    (∀ t, s.script = .host t :: rest → step s = transact t (s.withScript rest)) ∧
    (∀ p, s.script = .reset p :: rest → step s = .next (resetCycle (s.withScript rest) p)) ∧
    (s.script = .wait :: rest → step s = poll (s.withScript rest))

/-- Outside reset, each register of R21 changes only for a cause the rules name: `KEY`, `ROUNDS`, `IDENT` only by a
write to their own slot while idle (R22, R24, R25), `BLK` by that or by the finish step of operations 1 to 3 (R23,
R95), `RESULT` only by the finish step of FROM_TOKEN (R26), `OP` only at acceptance (R27); `V0`, `V1`, `SUM`, `ITER`
only at acceptance and by an iteration step, which takes exactly 1 from `ITER` (R31, R30); `PHASE`, `BUSY`, `DONE` only
at acceptance and by the finish step, `CHK_OK` only at acceptance and by the finish step of FROM_TOKEN (R30, R28); each
error flag only by its misuse (R151). -/
def Obligations.RegistersChangeOnlyForNamedCauses : Prop :=
  ∀ s t : State, step s = .next t → s.resetNext = false →
    (∀ j : Fin 4, s.writesIdle (BitVec.ofNat 4 j.val) = false → t.regs.key[j] = s.regs.key[j]) ∧
    (s.writesIdle 6#4 = false → t.regs.rounds = s.regs.rounds) ∧
    (s.writesIdle 7#4 = false → t.regs.ident = s.regs.ident) ∧
    (∀ j : Fin 2, s.writesIdle (BitVec.ofNat 4 (4 + j.val)) = false →
      ¬(s.finishNext = true ∧ s.regs.op ≠ 4#3) → t.regs.blk[j] = s.regs.blk[j]) ∧
    (¬(s.finishNext = true ∧ s.regs.op = 4#3) → t.regs.result = s.regs.result) ∧
    (s.acceptsNext = false → t.regs.op = s.regs.op) ∧
    (s.acceptsNext = false → s.iteratesNext = false →
      t.regs.v0 = s.regs.v0 ∧ t.regs.v1 = s.regs.v1 ∧ t.regs.sum = s.regs.sum ∧ t.regs.iter = s.regs.iter) ∧
    (s.iteratesNext = true → t.regs.iter = s.regs.iter - 1#32) ∧
    (s.acceptsNext = false → s.finishNext = false →
      t.regs.phase = s.regs.phase ∧ t.regs.busy = s.regs.busy ∧ t.regs.done = s.regs.done) ∧
    (s.acceptsNext = false → ¬(s.finishNext = true ∧ s.regs.op = 4#3) → t.regs.chkOk = s.regs.chkOk) ∧
    (s.busyMisuse = false → t.regs.errBusy = s.regs.errBusy) ∧
    (s.cmdMisuse = false → t.regs.errCmd = s.regs.errCmd)

/-! ### The host port -/

/-- R50's column "host read returns", R51, R52: a read is defined on every slot and in every state, returns the
column's value from the state it is taken in, and changes no register. -/
def Obligations.HostReadReturnsItsSlot : Prop :=
  (∀ (s : State) (idx : SlotIdx) (rest : List Event), s.script = .host (.read idx) :: rest →
    ∃ t, step s = .next t ∧ t.regs = s.regs ∧ t.script = rest ∧
      t.observed = ⟨idx, hostRead s.regs idx⟩ :: s.observed) ∧
  ∀ r : Regs,
    hostRead r 0#4 = r.key[0] ∧ hostRead r 1#4 = r.key[1] ∧ hostRead r 2#4 = r.key[2] ∧
    hostRead r 3#4 = r.key[3] ∧ hostRead r 4#4 = r.blk[0] ∧ hostRead r 5#4 = r.blk[1] ∧
    hostRead r 6#4 = r.rounds ∧ hostRead r 7#4 = r.ident ∧ hostRead r 8#4 = r.op.setWidth 32 ∧
    hostRead r 9#4 = statusWord r ∧ hostRead r 10#4 = r.result ∧
    ∀ idx : SlotIdx, 11 ≤ idx.toNat → hostRead r idx = 0#32

/-- R53 (with R90 for slot 8 and R92 for the writes while busy): what a host write does, slot by slot. -/
def Obligations.HostWriteEffectBySlot : Prop :=
  ∀ (s : State) (idx : SlotIdx) (v : Word) (rest : List Event), s.script = .host (.write idx v) :: rest →
    (s.regs.busy = false →
      (∀ j : Fin 4, idx.toNat = j.val →
        step s = .next ((s.withScript rest).withRegs { s.regs with key := s.regs.key.set j.val v })) ∧
      (∀ j : Fin 2, idx.toNat = 4 + j.val →
        step s = .next ((s.withScript rest).withRegs { s.regs with blk := s.regs.blk.set j.val v })) ∧
      (idx = 6#4 → step s = .next ((s.withScript rest).withRegs { s.regs with rounds := v })) ∧
      (idx = 7#4 → step s = .next ((s.withScript rest).withRegs { s.regs with ident := v })) ∧
      (idx = 8#4 → ∀ i, decode v = .instr i → step s = exec i (s.withScript rest)) ∧
      (idx = 8#4 → ∀ w, decode v = .reserved w →
        step s = .next ((s.withScript rest).withRegs { s.regs with errCmd := true }))) ∧
    (s.regs.busy = true → idx.toNat ≤ 8 →
      step s = .next ((s.withScript rest).withRegs { s.regs with errBusy := true })) ∧
    (9 ≤ idx.toNat → step s = .next (s.withScript rest))

/-- R38: no register aliases another. A write to a data slot while idle is read back there, and every other slot,
`STATUS` included, reads as before. -/
def Obligations.SlotWritesDoNotAlias : Prop :=
  ∀ (s : State) (idx : SlotIdx) (v : Word) (rest : List Event), s.script = .host (.write idx v) :: rest →
    s.regs.busy = false → idx.toNat ≤ 7 →
    ∃ t, step s = .next t ∧ hostRead t.regs idx = v ∧
      (∀ j : SlotIdx, j ≠ idx → hostRead t.regs j = hostRead s.regs j) ∧
      t.regs.v0 = s.regs.v0 ∧ t.regs.v1 = s.regs.v1 ∧ t.regs.sum = s.regs.sum ∧ t.regs.iter = s.regs.iter ∧
      t.regs.phase = s.regs.phase

/-- R92: a write to slots 0 to 8 while busy is dropped, whatever its value; `ERR_BUSY` is set and every slot but
STATUS reads as before. -/
def Obligations.WriteWhileBusyIsDropped : Prop :=
  ∀ (s : State) (idx : SlotIdx) (v : Word) (rest : List Event), s.script = .host (.write idx v) :: rest →
    s.regs.busy = true →
    (idx.toNat ≤ 8 → step s = .next ((s.withScript rest).withRegs { s.regs with errBusy := true })) ∧
    (9 ≤ idx.toNat → step s = .next (s.withScript rest)) ∧
    (∀ j : SlotIdx, j ≠ 9#4 → hostRead { s.regs with errBusy := true } j = hostRead s.regs j)

/-- R75: every word but 0 to 4 is reserved; while idle it starts nothing and sets `ERR_CMD`; while busy it is a
write while busy, and `ERR_CMD` is not set. -/
def Obligations.ReservedCommandSetsErrCmdOnly : Prop :=
  (∀ c : Word, (∃ w, decode c = .reserved w) ↔ 4 < c.toNat) ∧
  ∀ (s : State) (c : Word) (rest : List Event), s.script = .host (.write 8#4 c) :: rest → 4 < c.toNat →
    (s.regs.busy = false → step s = .next ((s.withScript rest).withRegs { s.regs with errCmd := true })) ∧
    (s.regs.busy = true → step s = .next ((s.withScript rest).withRegs { s.regs with errBusy := true }))

/-- R151 (with R153 (a) and R157): outside reset, each error flag after a step is its value before, or the
misuse that sets it; one write sets at most one of them; nothing else changes at a misuse; the flags are STATUS
bits 3 and 4. -/
def Obligations.ErrorFlagsRecordExactlyMisuse : Prop :=
  ∀ s t : State, step s = .next t → s.resetNext = false →
    t.regs.errBusy = (s.regs.errBusy || s.busyMisuse) ∧
    t.regs.errCmd = (s.regs.errCmd || s.cmdMisuse) ∧
    ¬(s.busyMisuse = true ∧ s.cmdMisuse = true) ∧
    (s.busyMisuse = true → t.regs = { s.regs with errBusy := true }) ∧
    (s.cmdMisuse = true → t.regs = { s.regs with errCmd := true }) ∧
    (hostRead t.regs 9#4)[3] = t.regs.errBusy ∧ (hostRead t.regs 9#4)[4] = t.regs.errCmd

/-- R28: the fields of STATUS, what sets and clears each of them, their reset values, and that a write to slot 9 is
ignored and a read of it changes no register. -/
def Obligations.StatusFlagsFollowAcceptanceAndFinish : Prop :=
  (∀ r : Regs,
    (hostRead r 9#4)[0] = r.busy ∧ (hostRead r 9#4)[1] = r.done ∧ (hostRead r 9#4)[2] = r.chkOk ∧
    (hostRead r 9#4)[3] = r.errBusy ∧ (hostRead r 9#4)[4] = r.errCmd ∧
    ∀ i, 5 ≤ i → (hostRead r 9#4).getLsbD i = false) ∧
  (∀ s t : State, step s = .next t → s.resetNext = false →
    t.regs.busy = (if s.acceptsNext then true else if s.finishNext then false else s.regs.busy) ∧
    t.regs.done = (if s.acceptsNext then false else if s.finishNext then true else s.regs.done) ∧
    t.regs.chkOk =
      (if s.acceptsNext then false
       else if s.finishNext && decide (s.regs.op = 4#3) then decide (chk Config.params s.regs.v0 = s.regs.v1)
       else s.regs.chkOk) ∧
    t.regs.errBusy = (s.regs.errBusy || s.busyMisuse) ∧
    t.regs.errCmd = (s.regs.errCmd || s.cmdMisuse)) ∧
  (∀ s t : State, step s = .next t → s.resetNext = true → statusWord t.regs = 0#32) ∧
  (∀ (s : State) (v : Word) (rest : List Event), s.script = .host (.write 9#4 v) :: rest →
    step s = .next (s.withScript rest)) ∧
  ∀ (s : State) (rest : List Event), s.script = .host (.read 9#4) :: rest →
    ∃ t, step s = .next t ∧ t.regs = s.regs

/-- From one step to the next of a running operation that still runs, nothing the host can read changes but STATUS,
and the key, the round count and the identifier stay as they were even at the finish step (R52, R66, R92). This is the
model's reading of R64 (c) beside R92 and R95 (log 10, DEDUCED): R64 (c) itself lets only STATUS bits change, and only at
the finish step, while a dropped write sets `ERR_BUSY` at once and the finish step writes `BLK` or `RESULT`. -/
def Obligations.NothingReadableChangesWhileBusy : Prop :=
  ∀ s t : State, step s = .next t → s.regs.busy = true → s.resetNext = false →
    t.regs.key = s.regs.key ∧ t.regs.rounds = s.regs.rounds ∧ t.regs.ident = s.regs.ident ∧
    (t.regs.busy = true → ∀ idx : SlotIdx, idx ≠ 9#4 → hostRead t.regs idx = hostRead s.regs idx)

/-- R64, R153 (b): in every cycle with `rst = 0`, whatever the transaction, it is taken first, in the state at the
start of the cycle, and the engine's step, where it takes one in that cycle, comes after it. So, with an engine step in
the cycle: a read of any slot returns that slot's value from the start of the cycle and leaves the engine's step as it
is; a write of any slot while busy is judged busy, the finish step of that cycle notwithstanding, and leaves the
engine's step as it is but for `ERR_BUSY`. In particular in the cycle of the finish step a command write is dropped with
`ERR_BUSY`, and a STATUS read returns `BUSY = 1`, `DONE = 0`. R153 (c): a cycle with reset is a reset and nothing
else. -/
def Obligations.HostComesBeforeEngineInOneCycle : Prop :=
  (∀ (s : State) (p : PortSignals) (tr : Transaction) (rest : List Event), p.rst = false →
    p.transaction = some tr →
    ∃ u, transact tr (s.withScript rest) = .next u ∧
      (s.script = p.events true ++ rest → stepN 2 s = engineStep u) ∧
      (s.script = p.events false ++ rest → stepN 1 s = .next u)) ∧
  (∀ (s : State) (p : PortSignals) (rest : List Event), p.rst = false → p.transaction = none →
    p.events false = [] ∧ (s.script = p.events true ++ rest → stepN 1 s = engineStep (s.withScript rest))) ∧
  (∀ (s : State) (p : PortSignals) (idx : SlotIdx) (rest : List Event), s.regs.Inv → p.rst = false →
    p.transaction = some (.read idx) → s.script = p.events true ++ rest →
    ∃ u, engineStep (s.withScript rest) = .next u ∧ u.observed = s.observed ∧
      stepN 2 s = .next (u.record idx (hostRead s.regs idx))) ∧
  (∀ (s : State) (p : PortSignals) (idx : SlotIdx) (v : Word) (rest : List Event), s.regs.Inv → p.rst = false →
    p.transaction = some (.write idx v) → s.script = p.events true ++ rest → s.regs.busy = true →
    ∃ u, engineStep (s.withScript rest) = .next u ∧ u.regs.errBusy = s.regs.errBusy ∧
      stepN 2 s = .next (u.withRegs { u.regs with errBusy := u.regs.errBusy || decide (idx.toNat ≤ 8) })) ∧
  (∀ (s : State) (c : Word) (rest : List Event), s.regs.Inv → s.regs.phase = .run → s.regs.iter = 0#32 →
    s.script = PortSignals.events ⟨false, true, true, 8#4, c⟩ true ++ rest →
    ∃ t, stepN 2 s = .next t ∧ t.script = rest ∧ t.regs.busy = false ∧ t.regs.done = true ∧
      t.regs.errBusy = true ∧ t.regs.errCmd = s.regs.errCmd ∧ t.regs.op = s.regs.op) ∧
  (∀ (s : State) (d : Word) (rest : List Event), s.regs.Inv → s.regs.phase = .run → s.regs.iter = 0#32 →
    s.script = PortSignals.events ⟨false, true, false, 9#4, d⟩ true ++ rest →
    ∃ t v, stepN 2 s = .next t ∧ t.script = rest ∧ t.observed = ⟨9#4, v⟩ :: s.observed ∧
      v[0] = true ∧ v[1] = false ∧ t.regs.busy = false ∧ t.regs.done = true) ∧
  (∀ (p : PortSignals) (e : Bool), p.rst = true → p.events e = [.reset p.transaction])

/-! ### Decoding and running a command -/

/-- R72, R71: a word decodes to a command if and only if it matches the command's row, and that is its own
encoding and no other word; every word that is no command's encoding is reserved. -/
def Obligations.DecodeIsExactlyTheOpcodeTable : Prop :=
  (∀ (c : Word) (i : Instr),
    (decode c = .instr i ↔ c &&& i.maskWord = i.matchWord) ∧ (decode c = .instr i ↔ c = encode i)) ∧
  ∀ c : Word, (∃ w, decode c = .reserved w) ↔ ∀ i : Instr, c ≠ encode i

/-- R71, R72: words written out bit by bit decode to the commands they stand for, and neighbours do not. -/
def Obligations.TableWordsDecodeAsWritten : Prop :=
  decode 0b00000000000000000000000000000000#32 = .instr .nop ∧
  decode 0b00000000000000000000000000000001#32 = .instr .encrypt ∧
  decode 0b00000000000000000000000000000010#32 = .instr .decrypt ∧
  decode 0b00000000000000000000000000000011#32 = .instr .toToken ∧
  decode 0b00000000000000000000000000000100#32 = .instr .fromToken ∧
  decode 0b00000000000000000000000000000101#32 = .reserved .opcodeReserved ∧
  decode 0b00000000000000000000000000000111#32 = .reserved .opcodeReserved ∧
  decode 0b00000000000000000000000000001001#32 = .reserved .zeroFieldSet ∧
  decode 0b10000000000000000000000000000000#32 = .reserved .zeroFieldSet

/-- R70, R90, R92: a step whose next transition writes the word of a command to slot 8 is exactly that command's
`exec`, in every state. The second clause says the same of the model's own way to place a table word as the next command
(`decodeTableWord`, `withFetchWord`: log 5, DESIGN CHOICE), which is no rule of the spec. -/
def Obligations.StepRunsTheDecodedCommand : Prop :=
  (∀ (s : State) (c : Word) (i : Instr) (rest : List Event), s.script = .host (.write 8#4 c) :: rest →
    decode c = .instr i → step s = exec i (s.withScript rest)) ∧
  (∀ (s : State) (nbits w : Nat) (i : Instr), decodeTableWord nbits w = some i →
    step (s.withFetchWord nbits w) = exec i s)

/-- R91: acceptance, all four rows, with every register it leaves alone. -/
def Obligations.AcceptanceLoadsWorkingRegisters : Prop :=
  ∀ s : State, s.regs.busy = false →
    exec .encrypt s = .next (s.withRegs
      { s.regs with
        op := 1#3, phase := .run, busy := true, done := false, chkOk := false
        v0 := s.regs.blk[0], v1 := s.regs.blk[1], sum := 0#32, iter := s.regs.rounds }) ∧
    exec .decrypt s = .next (s.withRegs
      { s.regs with
        op := 2#3, phase := .run, busy := true, done := false, chkOk := false
        v0 := s.regs.blk[0], v1 := s.regs.blk[1], sum := s.regs.rounds * 0x9E3779B9#32, iter := s.regs.rounds }) ∧
    exec .toToken s = .next (s.withRegs
      { s.regs with
        op := 3#3, phase := .run, busy := true, done := false, chkOk := false
        v0 := s.regs.ident, v1 := 0x18BA3187#32 * s.regs.ident + 0x1AC2F23B#32, sum := 0#32, iter := 64#32 }) ∧
    exec .fromToken s = .next (s.withRegs
      { s.regs with
        op := 4#3, phase := .run, busy := true, done := false, chkOk := false
        v0 := s.regs.blk[0], v1 := s.regs.blk[1], sum := 0x8DDE6E40#32, iter := 64#32 })

/-- R97: NOP is the empty transition while idle, and a write while busy while busy. -/
def Obligations.NopChangesNothingWhileIdle : Prop :=
  ∀ s : State,
    (s.regs.busy = false → exec .nop s = .next s) ∧
    (s.regs.busy = true → exec .nop s = .next (s.withRegs { s.regs with errBusy := true }))

/-- R92, R161: no command is accepted, queued or remembered while an operation runs. -/
def Obligations.CommandsWhileBusyAreDropped : Prop :=
  ∀ (i : Instr) (s : State), s.regs.busy = true →
    exec i s = .next (s.withRegs { s.regs with errBusy := true })

/-! ### The engine's steps -/

/-- R93: the engine has a step exactly while `PHASE = RUN`; while `PHASE = IDLE` it changes nothing. -/
def Obligations.EngineMovesExactlyWhileRunning : Prop :=
  ∀ s : State, s.regs.Inv →
    (s.regs.phase = .idle → engineStep s = .next s) ∧
    (s.regs.phase = .run → ∃ t, engineStep s = .next t ∧ t.regs ≠ s.regs ∧ t.script = s.script)

/-- R117: the encrypt-direction iteration step, with every register it leaves alone. -/
def Obligations.EncryptIterationStep : Prop :=
  ∀ s : State, s.regs.phase = .run → s.regs.iter ≠ 0#32 → s.regs.op = 1#3 ∨ s.regs.op = 3#3 →
    engineStep s = .next (s.withRegs
      { s.regs with
        v0 := (encIter Config.params s.regs.key ⟨s.regs.v0, s.regs.v1, s.regs.sum⟩).v0
        v1 := (encIter Config.params s.regs.key ⟨s.regs.v0, s.regs.v1, s.regs.sum⟩).v1
        sum := (encIter Config.params s.regs.key ⟨s.regs.v0, s.regs.v1, s.regs.sum⟩).sum
        iter := s.regs.iter - 1#32 })

/-- R118: the decrypt-direction iteration step, with every register it leaves alone; after the last one of an
operation `ITER` and `SUM` are 0. -/
def Obligations.DecryptIterationStep : Prop :=
  ∀ s : State, s.regs.phase = .run → s.regs.iter ≠ 0#32 → s.regs.op = 2#3 ∨ s.regs.op = 4#3 →
    engineStep s = .next (s.withRegs
      { s.regs with
        v0 := (decIter Config.params s.regs.key ⟨s.regs.v0, s.regs.v1, s.regs.sum⟩).v0
        v1 := (decIter Config.params s.regs.key ⟨s.regs.v0, s.regs.v1, s.regs.sum⟩).v1
        sum := (decIter Config.params s.regs.key ⟨s.regs.v0, s.regs.v1, s.regs.sum⟩).sum
        iter := s.regs.iter - 1#32 }) ∧
    (s.regs.SumInv → s.regs.iter = 1#32 →
      ∃ t, engineStep s = .next t ∧ t.regs.iter = 0#32 ∧ t.regs.sum = 0#32)

/-- R95: the finish step of each operation, with every register it leaves alone. -/
def Obligations.FinishStepDelivers : Prop :=
  ∀ s : State, s.regs.phase = .run → s.regs.iter = 0#32 →
    (s.regs.op = 1#3 ∨ s.regs.op = 2#3 ∨ s.regs.op = 3#3 →
      engineStep s = .next (s.withRegs
        { s.regs with blk := #v[s.regs.v0, s.regs.v1], phase := .idle, busy := false, done := true })) ∧
    (s.regs.op = 4#3 → 0x18BA3187#32 * s.regs.v0 + 0x1AC2F23B#32 = s.regs.v1 →
      engineStep s = .next (s.withRegs
        { s.regs with result := s.regs.v0, chkOk := true, phase := .idle, busy := false, done := true })) ∧
    (s.regs.op = 4#3 → 0x18BA3187#32 * s.regs.v0 + 0x1AC2F23B#32 ≠ s.regs.v1 →
      engineStep s = .next (s.withRegs
        { s.regs with result := 0#32, chkOk := false, phase := .idle, busy := false, done := true }))

/-! ### Whole operations -/

/-- R120: ENCRYPT, from its acceptance through `ROUNDS + 1` engine steps, and what it leaves alone. -/
def Obligations.EncryptOperation : Prop :=
  ∀ s : State, s.regs.busy = false →
    ∃ t, exec .encrypt s = .next t ∧ t.regs.busy = true ∧ t.regs.done = false ∧ t.regs.chkOk = false ∧
      t.regs.op = 1#3 ∧
      t.regs.v0 = s.regs.blk[0] ∧ t.regs.v1 = s.regs.blk[1] ∧ t.regs.sum = 0#32 ∧ t.regs.iter = s.regs.rounds ∧
      ∃ u, stepN (s.regs.rounds.toNat + 1) (t.withScript []) = .next u ∧
        u.regs.blk[0] = (encrypt Config.params s.regs.blk[0] s.regs.blk[1] s.regs.key s.regs.rounds.toNat).1 ∧
        u.regs.blk[1] = (encrypt Config.params s.regs.blk[0] s.regs.blk[1] s.regs.key s.regs.rounds.toNat).2 ∧
        u.regs.busy = false ∧ u.regs.phase = .idle ∧ u.regs.done = true ∧ u.regs.chkOk = false ∧
        u.regs.op = 1#3 ∧ u.regs.result = s.regs.result ∧ u.regs.ident = s.regs.ident ∧
        u.regs.key = s.regs.key ∧ u.regs.rounds = s.regs.rounds ∧ u.regs.errBusy = s.regs.errBusy ∧
        u.regs.errCmd = s.regs.errCmd ∧ u.observed = s.observed

/-- R121: DECRYPT, from its acceptance through `ROUNDS + 1` engine steps, and what it leaves alone. -/
def Obligations.DecryptOperation : Prop :=
  ∀ s : State, s.regs.busy = false →
    ∃ t, exec .decrypt s = .next t ∧ t.regs.busy = true ∧ t.regs.done = false ∧ t.regs.chkOk = false ∧
      t.regs.op = 2#3 ∧
      t.regs.v0 = s.regs.blk[0] ∧ t.regs.v1 = s.regs.blk[1] ∧
      t.regs.sum = s.regs.rounds * 0x9E3779B9#32 ∧ t.regs.iter = s.regs.rounds ∧
      ∃ u, stepN (s.regs.rounds.toNat + 1) (t.withScript []) = .next u ∧
        u.regs.blk[0] = (decrypt Config.params s.regs.blk[0] s.regs.blk[1] s.regs.key s.regs.rounds.toNat).1 ∧
        u.regs.blk[1] = (decrypt Config.params s.regs.blk[0] s.regs.blk[1] s.regs.key s.regs.rounds.toNat).2 ∧
        u.regs.busy = false ∧ u.regs.phase = .idle ∧ u.regs.done = true ∧ u.regs.chkOk = false ∧
        u.regs.op = 2#3 ∧ u.regs.result = s.regs.result ∧ u.regs.ident = s.regs.ident ∧
        u.regs.key = s.regs.key ∧ u.regs.rounds = s.regs.rounds ∧ u.regs.errBusy = s.regs.errBusy ∧
        u.regs.errCmd = s.regs.errCmd ∧ u.observed = s.observed

/-- R135: TO_TOKEN, from its acceptance through 65 engine steps, and what it leaves alone. -/
def Obligations.ToTokenOperation : Prop :=
  ∀ s : State, s.regs.busy = false →
    ∃ t, exec .toToken s = .next t ∧ t.regs.busy = true ∧ t.regs.done = false ∧ t.regs.chkOk = false ∧
      t.regs.op = 3#3 ∧
      t.regs.v0 = s.regs.ident ∧ t.regs.v1 = chk Config.params s.regs.ident ∧ t.regs.sum = 0#32 ∧ t.regs.iter = 64#32 ∧
      ∃ u, stepN 65 (t.withScript []) = .next u ∧
        u.regs.blk[0] = (toToken Config.params s.regs.ident s.regs.key).1 ∧
        u.regs.blk[1] = (toToken Config.params s.regs.ident s.regs.key).2 ∧
        u.regs.busy = false ∧ u.regs.phase = .idle ∧ u.regs.done = true ∧ u.regs.chkOk = false ∧
        u.regs.op = 3#3 ∧ u.regs.result = s.regs.result ∧ u.regs.ident = s.regs.ident ∧
        u.regs.key = s.regs.key ∧ u.regs.rounds = s.regs.rounds ∧ u.regs.errBusy = s.regs.errBusy ∧
        u.regs.errCmd = s.regs.errCmd ∧ u.observed = s.observed

/-- R136: FROM_TOKEN, from its acceptance through 65 engine steps, and what it leaves alone, `BLK` included. -/
def Obligations.FromTokenOperation : Prop :=
  ∀ s : State, s.regs.busy = false →
    ∃ t, exec .fromToken s = .next t ∧ t.regs.busy = true ∧ t.regs.done = false ∧ t.regs.chkOk = false ∧
      t.regs.op = 4#3 ∧
      t.regs.v0 = s.regs.blk[0] ∧ t.regs.v1 = s.regs.blk[1] ∧ t.regs.sum = 0x8DDE6E40#32 ∧ t.regs.iter = 64#32 ∧
      ∃ u, stepN 65 (t.withScript []) = .next u ∧
        u.regs.result = (fromToken Config.params s.regs.blk[0] s.regs.blk[1] s.regs.key).1 ∧
        u.regs.chkOk = (fromToken Config.params s.regs.blk[0] s.regs.blk[1] s.regs.key).2 ∧
        u.regs.busy = false ∧ u.regs.phase = .idle ∧ u.regs.done = true ∧
        u.regs.op = 4#3 ∧ u.regs.blk = s.regs.blk ∧ u.regs.ident = s.regs.ident ∧
        u.regs.key = s.regs.key ∧ u.regs.rounds = s.regs.rounds ∧ u.regs.errBusy = s.regs.errBusy ∧
        u.regs.errCmd = s.regs.errCmd ∧ u.observed = s.observed

/-- R98: whatever host transactions are interleaved with an operation's `n + 1` engine steps, the registers after
the finish step are those of the big-step view, but that `ERR_BUSY` records a write to slots 0 to 8 among them. -/
def Obligations.InterleavingDoesNotChangeOutcome : Prop :=
  ∀ (i : Instr) (s : State) (es rest : List Event), i ≠ .nop → s.regs.busy = false →
    s.script = .host (.write 8#4 (encode i)) :: (es ++ .engine :: rest) →
    (∀ e ∈ es, e.isPlain = true) → es.count .engine = iterations i s.regs →
    ∃ t, stepN (es.length + 2) s = .next t ∧ t.script = rest ∧
      t.regs =
        { bigStep i s.regs with errBusy := s.regs.errBusy || es.any (fun e => e.writesSlot0to8) }

/-- R96: an operation takes exactly `n` iteration steps, in which `ITER` counts down from `n` without wrapping and
`BUSY` stays 1, and then exactly one finish step. -/
def Obligations.OperationTakesItsIterationsPlusOne : Prop :=
  ∀ (i : Instr) (s : State), i ≠ .nop → s.regs.busy = false →
    ∃ t, exec i s = .next t ∧
      (∀ k, k ≤ iterations i s.regs → ∃ u, stepN k (t.withScript []) = .next u ∧ u.regs.busy = true ∧
        u.regs.phase = .run ∧ u.regs.iter.toNat = iterations i s.regs - k) ∧
      ∃ u, stepN (iterations i s.regs + 1) (t.withScript []) = .next u ∧ u.regs.busy = false ∧
        u.regs.phase = .idle ∧ u.regs.done = true

/-- R185, R96: where the block stands after any number of steps does not depend on the key, the block, the
identifier or the working words, under the same transitions from outside. -/
def Obligations.StepSequenceIndependentOfData : Prop :=
  ∀ (s q : State) (k : Nat) (t : State), s.script = q.script → s.regs.SameControl q.regs →
    stepN k s = .next t →
    ∃ u, stepN k q = .next u ∧ u.script = t.script ∧ t.regs.SameControl u.regs

/-- R133, R119 (g): what an operation delivers depends on its operands only: not on `ROUNDS` for the codec, not on
earlier results, flags or working registers for any. -/
def Obligations.ResultsDependOnOperandsOnly : Prop :=
  ∀ s q : State, s.regs.busy = false → q.regs.busy = false → s.regs.key = q.regs.key →
    (s.regs.ident = q.regs.ident → ∃ t u, stepN 66 ((s.withScript []).withFetchWord 32 3) = .next t ∧
      stepN 66 ((q.withScript []).withFetchWord 32 3) = .next u ∧ t.regs.blk = u.regs.blk) ∧
    (s.regs.blk = q.regs.blk → ∃ t u, stepN 66 ((s.withScript []).withFetchWord 32 4) = .next t ∧
      stepN 66 ((q.withScript []).withFetchWord 32 4) = .next u ∧
      t.regs.result = u.regs.result ∧ t.regs.chkOk = u.regs.chkOk) ∧
    (s.regs.blk = q.regs.blk → s.regs.rounds = q.regs.rounds → ∀ w, w = 1 ∨ w = 2 →
      ∃ t u, stepN (s.regs.rounds.toNat + 2) ((s.withScript []).withFetchWord 32 w) = .next t ∧
        stepN (s.regs.rounds.toNat + 2) ((q.withScript []).withFetchWord 32 w) = .next u ∧
        t.regs.blk = u.regs.blk)

/-- R119 (a): with `ROUNDS = 0` one engine step finishes ENCRYPT and DECRYPT, and the block is what it was. -/
def Obligations.ZeroRoundsIsTheIdentity : Prop :=
  ∀ (i : Instr) (s : State), i = .encrypt ∨ i = .decrypt → s.regs.busy = false → s.regs.rounds = 0#32 →
    ∃ t u, exec i s = .next t ∧ t.regs.busy = true ∧ t.regs.sum = 0#32 ∧
      stepN 1 (t.withScript []) = .next u ∧ u.regs.blk = s.regs.blk ∧ u.regs.busy = false ∧ u.regs.done = true

/-! ### The cipher and the codec as functions -/

/-- R111, R112, R113, R114: one iteration in each direction, written out with the constant of R6. -/
def Obligations.IterationFormulas : Prop :=
  (∀ v : Word, mix v = ((v <<< 4) ^^^ (v >>> 5)) + v) ∧
  (∀ s : Word, (selLo s).toNat = s.toNat % 4 ∧ (selHi s).toNat = s.toNat / 2048 % 4) ∧
  ∀ (key : Key) (a b s : Word),
    (encIter Config.params key ⟨a, b, s⟩).v0 = a + (mix b ^^^ (s + key[(selLo s).toNat]'(selLo s).isLt)) ∧
    (encIter Config.params key ⟨a, b, s⟩).sum = s + 0x9E3779B9#32 ∧
    (encIter Config.params key ⟨a, b, s⟩).v1 =
      b + (mix (a + (mix b ^^^ (s + key[(selLo s).toNat]'(selLo s).isLt))) ^^^
        (s + 0x9E3779B9#32 + key[(selHi (s + 0x9E3779B9#32)).toNat]'(selHi (s + 0x9E3779B9#32)).isLt)) ∧
    (decIter Config.params key ⟨a, b, s⟩).v1 = b - (mix a ^^^ (s + key[(selHi s).toNat]'(selHi s).isLt)) ∧
    (decIter Config.params key ⟨a, b, s⟩).sum = s - 0x9E3779B9#32 ∧
    (decIter Config.params key ⟨a, b, s⟩).v0 =
      a - (mix (b - (mix a ^^^ (s + key[(selHi s).toNat]'(selHi s).isLt))) ^^^
        (s - 0x9E3779B9#32 + key[(selLo (s - 0x9E3779B9#32)).toNat]'(selLo (s - 0x9E3779B9#32)).isLt))

/-- R122: each iteration undoes the other, for every key and every value of the constants, so each is a bijection on
the two halves for a fixed accumulator. -/
def Obligations.IterationsAreInverse : Prop :=
  ∀ (p : Params) (key : Key) (w : Working),
    decIter p key (encIter p key w) = w ∧ encIter p key (decIter p key w) = w ∧
    (Function.Bijective fun x : Word × Word =>
      ((encIter p key ⟨x.1, x.2, w.sum⟩).v0, (encIter p key ⟨x.1, x.2, w.sum⟩).v1)) ∧
    (Function.Bijective fun x : Word × Word =>
      ((decIter p key ⟨x.1, x.2, w.sum⟩).v0, (decIter p key ⟨x.1, x.2, w.sum⟩).v1))

/-- R123: `Decrypt` and `Encrypt` with the same key and count undo each other, for every count and every value of
the constants, so `Encrypt` is a bijection on blocks. -/
def Obligations.DecryptInvertsEncrypt : Prop :=
  ∀ (p : Params) (key : Key) (n : Nat),
    (∀ a b : Word, decrypt p (encrypt p a b key n).1 (encrypt p a b key n).2 key n = (a, b)) ∧
    (∀ a b : Word, encrypt p (decrypt p a b key n).1 (decrypt p a b key n).2 key n = (a, b)) ∧
    Function.Bijective fun x : Word × Word => encrypt p x.1 x.2 key n

/-- R115, R116: the accumulator after `n` iterations. -/
def Obligations.AccumulatorAfterIterations : Prop :=
  ∀ (p : Params) (key : Key) (a b : Word) (n : Nat),
    (encWork p a b key n).sum = BitVec.ofNat 32 n * p.delta ∧ (decWork p a b key n).sum = 0#32

/-- R124: the key index of step 1 is the iteration number modulo 4; the key indices of step 3 in the first eight
iterations; the multiples of `DELTA` the rule lists. -/
def Obligations.KeyIndexSchedule : Prop :=
  (∀ i : Nat, (selLo (BitVec.ofNat 32 i * Config.params.delta)).toNat = i % 4) ∧
  ((List.range 8).map fun i => BitVec.ofNat 32 i * Config.params.delta) =
    [0x00000000#32, 0x9E3779B9#32, 0x3C6EF372#32, 0xDAA66D2B#32, 0x78DDE6E4#32, 0x1715609D#32, 0xB54CDA56#32,
      0x5384540F#32] ∧
  ((List.range 8).map fun i => (selHi (BitVec.ofNat 32 (i + 1) * Config.params.delta)).toNat) =
    [3, 2, 1, 0, 0, 3, 2, 1] ∧
  BitVec.ofNat 32 8 * Config.params.delta = 0xF1BBCDC8#32 ∧
  BitVec.ofNat 32 32 * Config.params.delta = 0xC6EF3720#32 ∧
  BitVec.ofNat 32 64 * Config.params.delta = 0x8DDE6E40#32 ∧
  0x80000000#32 * Config.params.delta = 0x80000000#32 ∧ 0xFFFFFFFF#32 * Config.params.delta = 0x61C88647#32

/-- R130, R140: `Chk` and its inverse multiplier; `Chk` is a bijection; exactly `2^32` plaintext blocks and, under
any key, exactly `2^32` tokens pass the check. -/
def Obligations.ChecksumBijectionAndTokenCount : Prop :=
  (∀ id : Word, chk Config.params id = 0x18BA3187#32 * id + 0x1AC2F23B#32) ∧
  0x18BA3187#32 * 0xA24CC437#32 = 1#32 ∧
  Function.Bijective (chk Config.params) ∧
  {x : Word × Word | chk Config.params x.1 = x.2}.ncard = 2 ^ 32 ∧
  ∀ key : Key, {x : Word × Word | (fromToken Config.params x.1 x.2 key).2 = true}.ncard = 2 ^ 32

/-- R137: a token decodes to the identifier it was made from, with the validity flag set, for every key and every
value of the constants; identifier 0 included. -/
def Obligations.TokenDecodesToItsIdentifier : Prop :=
  ∀ (p : Params) (id : Word) (key : Key),
    fromToken p (toToken p id key).1 (toToken p id key).2 key = (id, true)

/-- The outcomes of `FromToken` (R132, R139); and a token passes the check if and only if it is the token of the
identifier returned, which follows from R131, R132, R123 and R137. -/
def Obligations.AcceptedTokensAreExactlyMadeTokens : Prop :=
  ∀ (t0 t1 : Word) (key : Key),
    (chk Config.params (decrypt Config.params t0 t1 key 64).1 = (decrypt Config.params t0 t1 key 64).2 →
      fromToken Config.params t0 t1 key = ((decrypt Config.params t0 t1 key 64).1, true)) ∧
    (chk Config.params (decrypt Config.params t0 t1 key 64).1 ≠ (decrypt Config.params t0 t1 key 64).2 →
      fromToken Config.params t0 t1 key = (0#32, false)) ∧
    ∀ id : Word, fromToken Config.params t0 t1 key = (id, true) ↔ toToken Config.params id key = (t0, t1)

/-! ### Byte views and notation -/

/-- R56: `Unpack32` is the little-endian number of its four bytes, and `Pack32` its inverse both ways. -/
def Obligations.PackAndUnpackAreInverse : Prop :=
  (∀ b : Vector Byte 4, (unpack32 b).toNat =
    b[0].toNat + 256 * b[1].toNat + 65536 * b[2].toNat + 16777216 * b[3].toNat) ∧
  (∀ b : Vector Byte 4, pack32 (unpack32 b) = b) ∧ (∀ w : Word, unpack32 (pack32 w) = w)

/-- R57, R58: word `j` of a key and of a block is bytes `4j` to `4j + 3`, and no byte is lost. -/
def Obligations.KeyAndBlockByteViews : Prop :=
  (∀ (k : Vector Byte 16) (j : Fin 4), (keyOfBytes k)[j] =
    unpack32 #v[k[4 * j.val], k[4 * j.val + 1], k[4 * j.val + 2], k[4 * j.val + 3]]) ∧
  (∀ (b : Vector Byte 8) (j : Fin 2), (blockOfBytes b)[j] =
    unpack32 #v[b[4 * j.val], b[4 * j.val + 1], b[4 * j.val + 2], b[4 * j.val + 3]]) ∧
  (∀ k : Vector Byte 16, keyToBytes (keyOfBytes k) = k) ∧ (∀ k : Key, keyOfBytes (keyToBytes k) = k) ∧
  (∀ b : Vector Byte 8, blockToBytes (blockOfBytes b) = b) ∧ ∀ b : Block, blockOfBytes (blockToBytes b) = b

/-- R78: a transaction written as a tuple is read back as itself, whatever the write lines carry in a read; R13, R50:
the slot of a byte offset (the tuple's bit places are the model's choice, log 5). -/
def Obligations.TuplesAndOffsetsNameTransactions : Prop :=
  (∀ (t : Transaction) (lines : Word), Transaction.ofTuple (t.tuple lines) = t) ∧
  (∀ (addr n : Nat) (i : SlotIdx), slotOfOffset addr n = some i ↔ n = 4 ∧ addr = 4 * i.toNat)

/-! ### Runs -/

/-- R78, R96, R152: the statement `wait` ends, with `BUSY` read as 0; the number of steps is that of the model's
polling (log 7). -/
def Obligations.WaitTerminates : Prop :=
  ∀ (s : State) (rest : List Event), s.regs.Inv → s.script = .wait :: rest →
    ∃ t, stepN (2 * s.regs.remaining + 1) s = .next t ∧ t.script = rest ∧ t.regs.busy = false ∧
      (∃ older, t.observed = ⟨9#4, statusWord t.regs⟩ :: older) ∧ (statusWord t.regs)[0] = false ∧
      t.regs.key = s.regs.key ∧ t.regs.rounds = s.regs.rounds ∧ t.regs.errBusy = s.regs.errBusy ∧
      t.regs.errCmd = s.regs.errCmd

/-- R184 (a), R96: whatever transactions and resets the outside has listed, the engine becomes idle within the
length of that list and the steps its operation still needs. The bound rests on log 2 (DESIGN CHOICE): with nothing
listed the step is the engine's turn. Scripts with `wait` are the subject of `WaitTerminates`. -/
def Obligations.EngineBecomesIdle : Prop :=
  ∀ s : State, s.regs.Inv → (∀ e ∈ s.script, e ≠ .wait) →
    ∃ k t, k ≤ s.script.length + s.regs.remaining ∧ stepN k s = .next t ∧ t.regs.phase = .idle

/-- R79, R64 (a) and (b): the host scripts of `encrypt` and `decrypt` run to their end from any idle state and read
the two result words last; no error flag is set. -/
def Obligations.CipherCallsReturnTheirResults : Prop :=
  ∀ (s : State) (b : Block) (k : Key) (rounds : Word), s.regs.Inv → s.regs.busy = false →
    (s.script = scriptEvents (callEncrypt b k rounds) →
      ∃ m t older, stepN m s = .next t ∧ t.script = [] ∧
        t.observed =
          ⟨5#4, (encrypt Config.params b[0] b[1] k rounds.toNat).2⟩ ::
            ⟨4#4, (encrypt Config.params b[0] b[1] k rounds.toNat).1⟩ :: older ∧
        t.regs.busy = false ∧ t.regs.errBusy = s.regs.errBusy ∧ t.regs.errCmd = s.regs.errCmd) ∧
    (s.script = scriptEvents (callDecrypt b k rounds) →
      ∃ m t older, stepN m s = .next t ∧ t.script = [] ∧
        t.observed =
          ⟨5#4, (decrypt Config.params b[0] b[1] k rounds.toNat).2⟩ ::
            ⟨4#4, (decrypt Config.params b[0] b[1] k rounds.toNat).1⟩ :: older ∧
        t.regs.busy = false ∧ t.regs.errBusy = s.regs.errBusy ∧ t.regs.errCmd = s.regs.errCmd)

/-- R79, R64 (a) and (b): the host scripts of `to_token` and `from_token` run to their end from any idle state and
read their results last: the token's two words; the identifier, and STATUS with `CHK_OK` in bit 2. -/
def Obligations.CodecCallsReturnTheirResults : Prop :=
  ∀ (s : State) (b : Block) (k : Key) (id : Word), s.regs.Inv → s.regs.busy = false →
    (s.script = scriptEvents (callToToken id k) →
      ∃ m t older, stepN m s = .next t ∧ t.script = [] ∧
        t.observed =
          ⟨5#4, (toToken Config.params id k).2⟩ :: ⟨4#4, (toToken Config.params id k).1⟩ :: older ∧
        t.regs.busy = false ∧ t.regs.errBusy = s.regs.errBusy ∧ t.regs.errCmd = s.regs.errCmd) ∧
    (s.script = scriptEvents (callFromToken b k) →
      ∃ m t older v, stepN m s = .next t ∧ t.script = [] ∧
        t.observed = ⟨9#4, v⟩ :: ⟨10#4, (fromToken Config.params b[0] b[1] k).1⟩ :: older ∧
        v[2] = (fromToken Config.params b[0] b[1] k).2 ∧
        t.regs.busy = false ∧ t.regs.errBusy = s.regs.errBusy ∧ t.regs.errCmd = s.regs.errCmd)

/-- R137, R181 on the machine: TO_TOKEN and then FROM_TOKEN, with no write of `BLK` between them, reads back the
identifier and a STATUS with `CHK_OK` set. -/
def Obligations.TokenRoundTripOnTheMachine : Prop :=
  ∀ (s : State) (k : Key) (id : Word), s.regs.Inv → s.regs.busy = false →
    s.script = scriptEvents (callToToken id k ++ [.wr .CMD 0x00000004#32, .wait, .rd .RESULT, .rd .STATUS]) →
    ∃ m t older v, stepN m s = .next t ∧ t.script = [] ∧ t.observed = ⟨9#4, v⟩ :: ⟨10#4, id⟩ :: older ∧
      v[2] = true ∧ v[0] = false

/-- R123, R179 on the machine: ENCRYPT and then DECRYPT, with `ROUNDS` and `KEY` left as they were, reads back the
block. -/
def Obligations.CipherRoundTripOnTheMachine : Prop :=
  ∀ (s : State) (b : Block) (k : Key) (rounds : Word), s.regs.Inv → s.regs.busy = false →
    s.script =
      scriptEvents (callEncrypt b k rounds ++ [.wr .CMD 0x00000002#32, .wait, .rd .BLK0, .rd .BLK1]) →
    ∃ m t older, stepN m s = .next t ∧ t.script = [] ∧
      t.observed = ⟨5#4, b[1]⟩ :: ⟨4#4, b[0]⟩ :: older ∧ t.regs.blk = b
end

