-- ==== Sys2Proof/Laws/Cipher.lean ====
section
/-! SUPPORT. The cipher and codec functions: the parts of one iteration by name, and what the whole transforms are
made of. -/

namespace Sys2Proof.Machine

/-! ### One iteration, part by part (R113, R114) -/

theorem encIter_v0 (p : Params) (k : Key) (w : Working) :
    (encIter p k w).v0 = w.v0 + (mix w.v1 ^^^ (w.sum + keyWord k (selLo w.sum))) := rfl

theorem encIter_v1 (p : Params) (k : Key) (w : Working) :
    (encIter p k w).v1 =
      w.v1 + (mix (encIter p k w).v0 ^^^ ((encIter p k w).sum + keyWord k (selHi (encIter p k w).sum))) := rfl

@[simp] theorem encIter_sum (p : Params) (k : Key) (w : Working) : (encIter p k w).sum = w.sum + p.delta :=
  BitVec.add_comm _ _

theorem decIter_v1 (p : Params) (k : Key) (w : Working) :
    (decIter p k w).v1 = w.v1 - (mix w.v0 ^^^ (w.sum + keyWord k (selHi w.sum))) := rfl

@[simp] theorem decIter_sum (p : Params) (k : Key) (w : Working) : (decIter p k w).sum = w.sum - p.delta := rfl

theorem decIter_v0 (p : Params) (k : Key) (w : Working) :
    (decIter p k w).v0 =
      w.v0 - (mix (decIter p k w).v1 ^^^ ((decIter p k w).sum + keyWord k (selLo (decIter p k w).sum))) := rfl

/-! ### The whole transforms (R115, R116) -/

theorem encWork_zero (p : Params) (a b : Word) (k : Key) : encWork p a b k 0 = ⟨a, b, 0#32⟩ := rfl

theorem encWork_succ (p : Params) (a b : Word) (k : Key) (n : Nat) :
    encWork p a b k (n + 1) = encIter p k (encWork p a b k n) := by
  simp [encWork, Function.iterate_succ_apply']

theorem decWork_zero (p : Params) (a b : Word) (k : Key) : decWork p a b k 0 = ⟨a, b, 0#32⟩ := by
  simp [decWork]

/-! ### The codec (R130 to R132) -/

/-- `Chk` in the order of R130. -/
theorem chk_eq (p : Params) (id : Word) : chk p id = p.chkMul * id + p.chkAdd := BitVec.add_comm _ _

theorem checksumOk_iff {p : Params} {a b : Word} : checksumOk p a b = true ↔ chk p a = b := by
  simp [checksumOk]

theorem recoveredId_of_ok {p : Params} {a b : Word} (h : checksumOk p a b = true) : recoveredId p a b = a := by
  simp [recoveredId, h]

theorem recoveredId_of_not_ok {p : Params} {a b : Word} (h : checksumOk p a b = false) :
    recoveredId p a b = 0#32 := by
  simp [recoveredId, h]

/-! ### The big-step view, field by field (R98) -/

theorem bigStep_key (i : Instr) (r : Regs) : (bigStep i r).key = r.key := by cases i <;> rfl
theorem bigStep_rounds (i : Instr) (r : Regs) : (bigStep i r).rounds = r.rounds := by cases i <;> rfl
theorem bigStep_ident (i : Instr) (r : Regs) : (bigStep i r).ident = r.ident := by cases i <;> rfl
theorem bigStep_errCmd (i : Instr) (r : Regs) : (bigStep i r).errCmd = r.errCmd := by cases i <;> rfl
theorem bigStep_errBusy (i : Instr) (r : Regs) : (bigStep i r).errBusy = r.errBusy := by cases i <;> rfl

theorem bigStep_encrypt_blk (r : Regs) :
    (bigStep .encrypt r).blk =
      #v[(encrypt Config.params r.blk[0] r.blk[1] r.key r.rounds.toNat).1,
        (encrypt Config.params r.blk[0] r.blk[1] r.key r.rounds.toNat).2] := rfl

theorem bigStep_decrypt_blk (r : Regs) :
    (bigStep .decrypt r).blk =
      #v[(decrypt Config.params r.blk[0] r.blk[1] r.key r.rounds.toNat).1,
        (decrypt Config.params r.blk[0] r.blk[1] r.key r.rounds.toNat).2] := rfl

theorem bigStep_toToken_blk (r : Regs) :
    (bigStep .toToken r).blk =
      #v[(toToken Config.params r.ident r.key).1, (toToken Config.params r.ident r.key).2] := rfl

theorem bigStep_fromToken_blk (r : Regs) : (bigStep .fromToken r).blk = r.blk := rfl

theorem bigStep_fromToken_result (r : Regs) :
    (bigStep .fromToken r).result = (fromToken Config.params r.blk[0] r.blk[1] r.key).1 := by
  simp only [bigStep]

theorem bigStep_fromToken_chkOk (r : Regs) :
    (bigStep .fromToken r).chkOk = (fromToken Config.params r.blk[0] r.blk[1] r.key).2 := by
  simp only [bigStep]

/-! ### Iteration counts (R96) -/

theorem iterations_encrypt (r : Regs) : iterations .encrypt r = r.rounds.toNat := rfl
theorem iterations_decrypt (r : Regs) : iterations .decrypt r = r.rounds.toNat := rfl
theorem iterations_toToken (r : Regs) : iterations .toToken r = 64 := rfl
theorem iterations_fromToken (r : Regs) : iterations .fromToken r = 64 := rfl

end Sys2Proof.Machine
end

