-- ==== Sys2Proof/Laws/State.lean ====
section
/-! SUPPORT. One lemma per field per update of the state and of the registers, each true by definition. -/

namespace Sys2Proof.Machine

/-! ### Updates of the state -/

@[simp] theorem State.withRegs_regs (s : State) (r : Regs) : (s.withRegs r).regs = r := rfl
@[simp] theorem State.withRegs_script (s : State) (r : Regs) : (s.withRegs r).script = s.script := rfl
@[simp] theorem State.withRegs_observed (s : State) (r : Regs) : (s.withRegs r).observed = s.observed := rfl
@[simp] theorem State.withRegs_freeReads (s : State) (r : Regs) : (s.withRegs r).freeReads = s.freeReads := rfl

@[simp] theorem State.withScript_regs (s : State) (es : List Event) : (s.withScript es).regs = s.regs := rfl
@[simp] theorem State.withScript_script (s : State) (es : List Event) : (s.withScript es).script = es := rfl
@[simp] theorem State.withScript_observed (s : State) (es : List Event) : (s.withScript es).observed = s.observed := rfl
@[simp] theorem State.withScript_freeReads (s : State) (es : List Event) : (s.withScript es).freeReads = s.freeReads := rfl

@[simp] theorem State.record_regs (s : State) (i : SlotIdx) (v : Word) : (s.record i v).regs = s.regs := rfl
@[simp] theorem State.record_script (s : State) (i : SlotIdx) (v : Word) : (s.record i v).script = s.script := rfl
@[simp] theorem State.record_observed (s : State) (i : SlotIdx) (v : Word) : (s.record i v).observed = ⟨i, v⟩ :: s.observed := rfl
@[simp] theorem State.record_freeReads (s : State) (i : SlotIdx) (v : Word) : (s.record i v).freeReads = s.freeReads := rfl

@[simp] theorem State.withRegs_self (s : State) : s.withRegs s.regs = s := rfl
@[simp] theorem State.withRegs_withRegs (s : State) (r q : Regs) : (s.withRegs r).withRegs q = s.withRegs q := rfl
@[simp] theorem State.withScript_withRegs_self (s : State) (es : List Event) :
    (s.withScript es).withRegs s.regs = s.withScript es := rfl
@[simp] theorem State.withScript_self (s : State) : s.withScript s.script = s := rfl
@[simp] theorem State.withScript_withScript (s : State) (es fs : List Event) :
    (s.withScript es).withScript fs = s.withScript fs := rfl

/-! ### Updates of the registers -/

@[simp] theorem Regs.flagBusyError_key (r : Regs) : (r.flagBusyError).key = r.key := rfl
@[simp] theorem Regs.flagBusyError_blk (r : Regs) : (r.flagBusyError).blk = r.blk := rfl
@[simp] theorem Regs.flagBusyError_rounds (r : Regs) : (r.flagBusyError).rounds = r.rounds := rfl
@[simp] theorem Regs.flagBusyError_ident (r : Regs) : (r.flagBusyError).ident = r.ident := rfl
@[simp] theorem Regs.flagBusyError_op (r : Regs) : (r.flagBusyError).op = r.op := rfl
@[simp] theorem Regs.flagBusyError_busy (r : Regs) : (r.flagBusyError).busy = r.busy := rfl
@[simp] theorem Regs.flagBusyError_done (r : Regs) : (r.flagBusyError).done = r.done := rfl
@[simp] theorem Regs.flagBusyError_chkOk (r : Regs) : (r.flagBusyError).chkOk = r.chkOk := rfl
@[simp] theorem Regs.flagBusyError_errBusy (r : Regs) : (r.flagBusyError).errBusy = true := rfl
@[simp] theorem Regs.flagBusyError_errCmd (r : Regs) : (r.flagBusyError).errCmd = r.errCmd := rfl
@[simp] theorem Regs.flagBusyError_result (r : Regs) : (r.flagBusyError).result = r.result := rfl
@[simp] theorem Regs.flagBusyError_v0 (r : Regs) : (r.flagBusyError).v0 = r.v0 := rfl
@[simp] theorem Regs.flagBusyError_v1 (r : Regs) : (r.flagBusyError).v1 = r.v1 := rfl
@[simp] theorem Regs.flagBusyError_sum (r : Regs) : (r.flagBusyError).sum = r.sum := rfl
@[simp] theorem Regs.flagBusyError_iter (r : Regs) : (r.flagBusyError).iter = r.iter := rfl
@[simp] theorem Regs.flagBusyError_phase (r : Regs) : (r.flagBusyError).phase = r.phase := rfl

@[simp] theorem Regs.flagCmdError_key (r : Regs) : (r.flagCmdError).key = r.key := rfl
@[simp] theorem Regs.flagCmdError_blk (r : Regs) : (r.flagCmdError).blk = r.blk := rfl
@[simp] theorem Regs.flagCmdError_rounds (r : Regs) : (r.flagCmdError).rounds = r.rounds := rfl
@[simp] theorem Regs.flagCmdError_ident (r : Regs) : (r.flagCmdError).ident = r.ident := rfl
@[simp] theorem Regs.flagCmdError_op (r : Regs) : (r.flagCmdError).op = r.op := rfl
@[simp] theorem Regs.flagCmdError_busy (r : Regs) : (r.flagCmdError).busy = r.busy := rfl
@[simp] theorem Regs.flagCmdError_done (r : Regs) : (r.flagCmdError).done = r.done := rfl
@[simp] theorem Regs.flagCmdError_chkOk (r : Regs) : (r.flagCmdError).chkOk = r.chkOk := rfl
@[simp] theorem Regs.flagCmdError_errBusy (r : Regs) : (r.flagCmdError).errBusy = r.errBusy := rfl
@[simp] theorem Regs.flagCmdError_errCmd (r : Regs) : (r.flagCmdError).errCmd = true := rfl
@[simp] theorem Regs.flagCmdError_result (r : Regs) : (r.flagCmdError).result = r.result := rfl
@[simp] theorem Regs.flagCmdError_v0 (r : Regs) : (r.flagCmdError).v0 = r.v0 := rfl
@[simp] theorem Regs.flagCmdError_v1 (r : Regs) : (r.flagCmdError).v1 = r.v1 := rfl
@[simp] theorem Regs.flagCmdError_sum (r : Regs) : (r.flagCmdError).sum = r.sum := rfl
@[simp] theorem Regs.flagCmdError_iter (r : Regs) : (r.flagCmdError).iter = r.iter := rfl
@[simp] theorem Regs.flagCmdError_phase (r : Regs) : (r.flagCmdError).phase = r.phase := rfl

@[simp] theorem Regs.accept_key (r : Regs) (op : BitVec 3) (a b c d : Word) : (r.accept op a b c d).key = r.key := rfl
@[simp] theorem Regs.accept_blk (r : Regs) (op : BitVec 3) (a b c d : Word) : (r.accept op a b c d).blk = r.blk := rfl
@[simp] theorem Regs.accept_rounds (r : Regs) (op : BitVec 3) (a b c d : Word) : (r.accept op a b c d).rounds = r.rounds := rfl
@[simp] theorem Regs.accept_ident (r : Regs) (op : BitVec 3) (a b c d : Word) : (r.accept op a b c d).ident = r.ident := rfl
@[simp] theorem Regs.accept_op (r : Regs) (op : BitVec 3) (a b c d : Word) : (r.accept op a b c d).op = op := rfl
@[simp] theorem Regs.accept_busy (r : Regs) (op : BitVec 3) (a b c d : Word) : (r.accept op a b c d).busy = true := rfl
@[simp] theorem Regs.accept_done (r : Regs) (op : BitVec 3) (a b c d : Word) : (r.accept op a b c d).done = false := rfl
@[simp] theorem Regs.accept_chkOk (r : Regs) (op : BitVec 3) (a b c d : Word) : (r.accept op a b c d).chkOk = false := rfl
@[simp] theorem Regs.accept_errBusy (r : Regs) (op : BitVec 3) (a b c d : Word) : (r.accept op a b c d).errBusy = r.errBusy := rfl
@[simp] theorem Regs.accept_errCmd (r : Regs) (op : BitVec 3) (a b c d : Word) : (r.accept op a b c d).errCmd = r.errCmd := rfl
@[simp] theorem Regs.accept_result (r : Regs) (op : BitVec 3) (a b c d : Word) : (r.accept op a b c d).result = r.result := rfl
@[simp] theorem Regs.accept_v0 (r : Regs) (op : BitVec 3) (a b c d : Word) : (r.accept op a b c d).v0 = a := rfl
@[simp] theorem Regs.accept_v1 (r : Regs) (op : BitVec 3) (a b c d : Word) : (r.accept op a b c d).v1 = b := rfl
@[simp] theorem Regs.accept_sum (r : Regs) (op : BitVec 3) (a b c d : Word) : (r.accept op a b c d).sum = c := rfl
@[simp] theorem Regs.accept_iter (r : Regs) (op : BitVec 3) (a b c d : Word) : (r.accept op a b c d).iter = d := rfl
@[simp] theorem Regs.accept_phase (r : Regs) (op : BitVec 3) (a b c d : Word) : (r.accept op a b c d).phase = .run := rfl

@[simp] theorem Regs.iterate_key (r : Regs) (o : Operation) : (r.iterate o).key = r.key := rfl
@[simp] theorem Regs.iterate_blk (r : Regs) (o : Operation) : (r.iterate o).blk = r.blk := rfl
@[simp] theorem Regs.iterate_rounds (r : Regs) (o : Operation) : (r.iterate o).rounds = r.rounds := rfl
@[simp] theorem Regs.iterate_ident (r : Regs) (o : Operation) : (r.iterate o).ident = r.ident := rfl
@[simp] theorem Regs.iterate_op (r : Regs) (o : Operation) : (r.iterate o).op = r.op := rfl
@[simp] theorem Regs.iterate_busy (r : Regs) (o : Operation) : (r.iterate o).busy = r.busy := rfl
@[simp] theorem Regs.iterate_done (r : Regs) (o : Operation) : (r.iterate o).done = r.done := rfl
@[simp] theorem Regs.iterate_chkOk (r : Regs) (o : Operation) : (r.iterate o).chkOk = r.chkOk := rfl
@[simp] theorem Regs.iterate_errBusy (r : Regs) (o : Operation) : (r.iterate o).errBusy = r.errBusy := rfl
@[simp] theorem Regs.iterate_errCmd (r : Regs) (o : Operation) : (r.iterate o).errCmd = r.errCmd := rfl
@[simp] theorem Regs.iterate_result (r : Regs) (o : Operation) : (r.iterate o).result = r.result := rfl
@[simp] theorem Regs.iterate_v0 (r : Regs) (o : Operation) : (r.iterate o).v0 = (o.iteration Config.params r.key r.working).v0 := rfl
@[simp] theorem Regs.iterate_v1 (r : Regs) (o : Operation) : (r.iterate o).v1 = (o.iteration Config.params r.key r.working).v1 := rfl
@[simp] theorem Regs.iterate_sum (r : Regs) (o : Operation) : (r.iterate o).sum = (o.iteration Config.params r.key r.working).sum := rfl
@[simp] theorem Regs.iterate_iter (r : Regs) (o : Operation) : (r.iterate o).iter = r.iter - 1#32 := rfl
@[simp] theorem Regs.iterate_phase (r : Regs) (o : Operation) : (r.iterate o).phase = r.phase := rfl

@[simp] theorem Regs.finish_blk (r : Regs) (o : Operation) : (r.finish o).blk = (r.deliver o).blk := rfl
@[simp] theorem Regs.finish_busy (r : Regs) (o : Operation) : (r.finish o).busy = false := rfl
@[simp] theorem Regs.finish_done (r : Regs) (o : Operation) : (r.finish o).done = true := rfl
@[simp] theorem Regs.finish_chkOk (r : Regs) (o : Operation) : (r.finish o).chkOk = (r.deliver o).chkOk := rfl
@[simp] theorem Regs.finish_result (r : Regs) (o : Operation) : (r.finish o).result = (r.deliver o).result := rfl
@[simp] theorem Regs.finish_phase (r : Regs) (o : Operation) : (r.finish o).phase = .idle := rfl

/-! ### What the finish step delivers (R95) -/

@[simp] theorem Regs.deliver_encrypt (r : Regs) : r.deliver .encrypt = { r with blk := #v[r.v0, r.v1] } := rfl
@[simp] theorem Regs.deliver_decrypt (r : Regs) : r.deliver .decrypt = { r with blk := #v[r.v0, r.v1] } := rfl
@[simp] theorem Regs.deliver_toToken (r : Regs) : r.deliver .toToken = { r with blk := #v[r.v0, r.v1] } := rfl
@[simp] theorem Regs.deliver_fromToken (r : Regs) :
    r.deliver .fromToken =
      { r with
        result := recoveredId Config.params r.v0 r.v1
        chkOk := checksumOk Config.params r.v0 r.v1 } := rfl

@[simp] theorem Regs.finish_key (r : Regs) (o : Operation) : (r.finish o).key = r.key := by
  unfold Regs.finish Regs.deliver; split <;> rfl
@[simp] theorem Regs.finish_rounds (r : Regs) (o : Operation) : (r.finish o).rounds = r.rounds := by
  unfold Regs.finish Regs.deliver; split <;> rfl
@[simp] theorem Regs.finish_ident (r : Regs) (o : Operation) : (r.finish o).ident = r.ident := by
  unfold Regs.finish Regs.deliver; split <;> rfl
@[simp] theorem Regs.finish_op (r : Regs) (o : Operation) : (r.finish o).op = r.op := by
  unfold Regs.finish Regs.deliver; split <;> rfl
@[simp] theorem Regs.finish_errBusy (r : Regs) (o : Operation) : (r.finish o).errBusy = r.errBusy := by
  unfold Regs.finish Regs.deliver; split <;> rfl
@[simp] theorem Regs.finish_errCmd (r : Regs) (o : Operation) : (r.finish o).errCmd = r.errCmd := by
  unfold Regs.finish Regs.deliver; split <;> rfl
@[simp] theorem Regs.finish_v0 (r : Regs) (o : Operation) : (r.finish o).v0 = r.v0 := by
  unfold Regs.finish Regs.deliver; split <;> rfl
@[simp] theorem Regs.finish_v1 (r : Regs) (o : Operation) : (r.finish o).v1 = r.v1 := by
  unfold Regs.finish Regs.deliver; split <;> rfl
@[simp] theorem Regs.finish_sum (r : Regs) (o : Operation) : (r.finish o).sum = r.sum := by
  unfold Regs.finish Regs.deliver; split <;> rfl
@[simp] theorem Regs.finish_iter (r : Regs) (o : Operation) : (r.finish o).iter = r.iter := by
  unfold Regs.finish Regs.deliver; split <;> rfl

/-! ### What a write to a data slot leaves alone (R53) -/

@[simp] theorem Regs.writeData_op (r : Regs) (i : SlotIdx) (v : Word) : (r.writeData i v).op = r.op := by
  unfold Regs.writeData; split <;> rfl
@[simp] theorem Regs.writeData_busy (r : Regs) (i : SlotIdx) (v : Word) : (r.writeData i v).busy = r.busy := by
  unfold Regs.writeData; split <;> rfl
@[simp] theorem Regs.writeData_done (r : Regs) (i : SlotIdx) (v : Word) : (r.writeData i v).done = r.done := by
  unfold Regs.writeData; split <;> rfl
@[simp] theorem Regs.writeData_chkOk (r : Regs) (i : SlotIdx) (v : Word) : (r.writeData i v).chkOk = r.chkOk := by
  unfold Regs.writeData; split <;> rfl
@[simp] theorem Regs.writeData_errBusy (r : Regs) (i : SlotIdx) (v : Word) : (r.writeData i v).errBusy = r.errBusy := by
  unfold Regs.writeData; split <;> rfl
@[simp] theorem Regs.writeData_errCmd (r : Regs) (i : SlotIdx) (v : Word) : (r.writeData i v).errCmd = r.errCmd := by
  unfold Regs.writeData; split <;> rfl
@[simp] theorem Regs.writeData_result (r : Regs) (i : SlotIdx) (v : Word) : (r.writeData i v).result = r.result := by
  unfold Regs.writeData; split <;> rfl
@[simp] theorem Regs.writeData_v0 (r : Regs) (i : SlotIdx) (v : Word) : (r.writeData i v).v0 = r.v0 := by
  unfold Regs.writeData; split <;> rfl
@[simp] theorem Regs.writeData_v1 (r : Regs) (i : SlotIdx) (v : Word) : (r.writeData i v).v1 = r.v1 := by
  unfold Regs.writeData; split <;> rfl
@[simp] theorem Regs.writeData_sum (r : Regs) (i : SlotIdx) (v : Word) : (r.writeData i v).sum = r.sum := by
  unfold Regs.writeData; split <;> rfl
@[simp] theorem Regs.writeData_iter (r : Regs) (i : SlotIdx) (v : Word) : (r.writeData i v).iter = r.iter := by
  unfold Regs.writeData; split <;> rfl
@[simp] theorem Regs.writeData_phase (r : Regs) (i : SlotIdx) (v : Word) : (r.writeData i v).phase = r.phase := by
  unfold Regs.writeData; split <;> rfl

/-! ### A reset cycle (R170) -/

@[simp] theorem resetCycle_regs (s : State) (p : Option Transaction) : (resetCycle s p).regs = Regs.reset := by
  unfold resetCycle; split <;> rfl
@[simp] theorem resetCycle_script (s : State) (p : Option Transaction) : (resetCycle s p).script = s.script := by
  unfold resetCycle; split <;> rfl

end Sys2Proof.Machine
end

