-- ==== Sys2Proof/Laws/Ops.lean ====
section
/-! SUPPORT. For each shared operation, what it can do, said once: reads and writes of the slots, a command's effect,
the engine's step, and the step of the whole machine. -/

namespace Sys2Proof.Machine

/-! ### Reading the slots (R50) -/

@[simp] theorem hostRead_key0 (r : Regs) : hostRead r 0#4 = r.key[0] := rfl
@[simp] theorem hostRead_key1 (r : Regs) : hostRead r 1#4 = r.key[1] := rfl
@[simp] theorem hostRead_key2 (r : Regs) : hostRead r 2#4 = r.key[2] := rfl
@[simp] theorem hostRead_key3 (r : Regs) : hostRead r 3#4 = r.key[3] := rfl
@[simp] theorem hostRead_blk0 (r : Regs) : hostRead r 4#4 = r.blk[0] := rfl
@[simp] theorem hostRead_blk1 (r : Regs) : hostRead r 5#4 = r.blk[1] := rfl
@[simp] theorem hostRead_rounds (r : Regs) : hostRead r 6#4 = r.rounds := rfl
@[simp] theorem hostRead_ident (r : Regs) : hostRead r 7#4 = r.ident := rfl
@[simp] theorem hostRead_cmd (r : Regs) : hostRead r 8#4 = r.op.setWidth 32 := rfl
@[simp] theorem hostRead_status (r : Regs) : hostRead r 9#4 = statusWord r := rfl
@[simp] theorem hostRead_result (r : Regs) : hostRead r 10#4 = r.result := rfl

theorem hostRead_reserved (r : Regs) (i : SlotIdx) (h : 11 ≤ i.toNat) : hostRead r i = 0#32 := by
  unfold hostRead
  split <;> first | omega | rfl

/-- Bit 0 of STATUS is `BUSY`: the bit the statement `wait` looks at (R28, R78). -/
@[simp] theorem statusWord_bit_zero (r : Regs) : (statusWord r)[0] = r.busy := by
  simp [statusWord, flagWord]

/-! ### A command's effect (R90, R92) -/

theorem onIdle_busy {s : State} (h : s.regs.busy = true) (f : Regs → Regs) : onIdle s f = dropWrite s := by
  simp [onIdle, h]

theorem onIdle_idle {s : State} (h : s.regs.busy = false) (f : Regs → Regs) :
    onIdle s f = .next (s.withRegs (f s.regs)) := by
  simp [onIdle, h]

/-- What a command's acceptance does to the registers (R91, R97): the four rows of R91, and nothing for NOP. -/
def acceptEffect (i : Instr) (r : Regs) : Regs :=
  match i with
  | .nop => r
  | .encrypt => r.accept 1#3 r.blk[0] r.blk[1] 0#32 r.rounds
  | .decrypt => r.accept 2#3 r.blk[0] r.blk[1] (r.rounds * Config.params.delta) r.rounds
  | .toToken => r.accept 3#3 r.ident (chk Config.params r.ident) 0#32 Config.params.codecRounds
  | .fromToken =>
    r.accept 4#3 r.blk[0] r.blk[1] (Config.params.codecRounds * Config.params.delta) Config.params.codecRounds

/-- Every command is one `onIdle`. -/
theorem exec_eq (i : Instr) (s : State) : exec i s = onIdle s (acceptEffect i) := by
  cases i <;> rfl

theorem exec_busy (i : Instr) {s : State} (h : s.regs.busy = true) : exec i s = dropWrite s := by
  rw [exec_eq, onIdle_busy h]

theorem exec_idle (i : Instr) {s : State} (h : s.regs.busy = false) :
    exec i s = .next (s.withRegs (acceptEffect i s.regs)) := by
  rw [exec_eq, onIdle_idle h]

/-! ### A host write (R53, R90, R92) -/

/-- What a host write does to the registers, in every state. -/
def Regs.hostWritten (r : Regs) (idx : SlotIdx) (v : Word) : Regs :=
  if idx.toNat ≤ 8 then
    if r.busy then r.flagBusyError
    else if idx = 8#4 then
      match decode v with
      | .instr i => acceptEffect i r
      | .reserved _ => r.flagCmdError
    else r.writeData idx v
  else r

/-- Every host write answers a next state, and changes registers only. -/
theorem hostWrite_eq (idx : SlotIdx) (v : Word) (s : State) :
    hostWrite idx v s = .next (s.withRegs (s.regs.hostWritten idx v)) := by
  unfold hostWrite Regs.hostWritten
  by_cases hi : idx.toNat ≤ 8
  · cases hb : s.regs.busy
    · by_cases h8 : idx = 8#4
      · cases hd : decode v with
        | instr i => simp [h8, commandWrite, hd, exec_idle i hb]
        | reserved w => simp [h8, commandWrite, hd]
      · simp [hi, h8]
    · simp [hi, dropWrite]
  · simp [hi]

/-! ### The engine's step (R93) -/

theorem engineStep_idle {s : State} (h : s.regs.phase = .idle) : engineStep s = .next s := by
  simp [engineStep, h]

theorem engineStep_run {s : State} {o : Operation} (h : s.regs.phase = .run)
    (ho : Operation.ofOp s.regs.op = some o) : engineStep s = .next (s.withRegs (s.regs.advance o)) := by
  simp [engineStep, h, ho]

theorem Regs.advance_zero {r : Regs} (o : Operation) (h : r.iter = 0#32) : r.advance o = r.finish o := by
  simp [Regs.advance, h]

theorem Regs.advance_nonzero {r : Regs} (o : Operation) (h : r.iter ≠ 0#32) : r.advance o = r.iterate o := by
  simp [Regs.advance, h]

/-- What an engine step that answers a next state did. -/
theorem engineStep_cases {s t : State} (h : engineStep s = .next t) :
    (s.regs.phase = .idle ∧ t = s) ∨
      ∃ o, s.regs.phase = .run ∧ Operation.ofOp s.regs.op = some o ∧ t = s.withRegs (s.regs.advance o) := by
  unfold engineStep at h
  split at h
  · rename_i hp
    injection h with h
    exact .inl ⟨hp, h.symm⟩
  · rename_i hp
    split at h
    · rename_i o ho
      injection h with h
      exact .inr ⟨o, hp, ho, h.symm⟩
    · cases h

theorem Operation.ofOp_some {op : BitVec 3} {o : Operation} (h : Operation.ofOp op = some o) :
    (o = .encrypt ∧ op = 1#3) ∨ (o = .decrypt ∧ op = 2#3) ∨ (o = .toToken ∧ op = 3#3) ∨
      (o = .fromToken ∧ op = 4#3) := by
  revert h
  cases o <;> revert op <;> decide

theorem Operation.ofOp_none {op : BitVec 3} (h : Operation.ofOp op = none) : op = 0#3 ∨ 4 < op.toNat := by
  revert h op
  decide

/-! ### One transition of the whole machine -/

theorem poll_busy {s : State} (h : s.regs.busy = true) :
    poll s = .next ((s.record 9#4 (statusWord s.regs)).withScript (.engine :: .wait :: s.script)) := by
  rw [poll, hostRead_status, statusWord_bit_zero, if_pos h]

theorem poll_idle {s : State} (h : s.regs.busy = false) :
    poll s = .next (s.record 9#4 (statusWord s.regs)) := by
  rw [poll, hostRead_status, statusWord_bit_zero, if_neg (by simp [h])]

theorem step_empty {s : State} (h : s.script = []) : step s = engineStep s := by
  simp [step, h]

theorem step_event {s : State} {e : Event} {es : List Event} (h : s.script = e :: es) :
    step s = runEvent e (s.withScript es) := by
  simp [step, h]

/-- What a step that answers a next state did: the engine's turn (listed, or nothing listed), a read, a write, a
reset cycle, or a poll of `wait`. -/
theorem step_cases {s t : State} (h : step s = .next t) :
    (∃ es, (s.script = [] ∧ es = [] ∨ s.script = .engine :: es) ∧ engineStep (s.withScript es) = .next t) ∨
    (∃ idx es, s.script = .host (.read idx) :: es ∧ t = (s.withScript es).record idx (hostRead s.regs idx)) ∨
    (∃ idx v es, s.script = .host (.write idx v) :: es ∧
      t = (s.withScript es).withRegs (s.regs.hostWritten idx v)) ∨
    (∃ p es, s.script = .reset p :: es ∧ t = resetCycle (s.withScript es) p) ∨
    (∃ es, s.script = .wait :: es ∧ poll (s.withScript es) = .next t) := by
  cases hs : s.script with
  | nil =>
    refine .inl ⟨[], .inl ⟨rfl, rfl⟩, ?_⟩
    rw [step_empty hs] at h
    rwa [← hs, State.withScript_self]
  | cons e es =>
    rw [step_event hs] at h
    cases e with
    | host tr =>
      cases tr with
      | read idx =>
        injection h with h
        exact .inr (.inl ⟨idx, es, rfl, h.symm⟩)
      | write idx v =>
        have h : hostWrite idx v (s.withScript es) = .next t := h
        rw [hostWrite_eq] at h
        injection h with h
        exact .inr (.inr (.inl ⟨idx, v, es, rfl, h.symm⟩))
    | engine => exact .inl ⟨es, .inr rfl, h⟩
    | reset p =>
      injection h with h
      exact .inr (.inr (.inr (.inl ⟨p, es, rfl, h.symm⟩)))
    | wait => exact .inr (.inr (.inr (.inr ⟨es, rfl, h⟩)))

/-- What a step does to the registers. -/
theorem step_regs_cases {s t : State} (h : step s = .next t) :
    t.regs = s.regs ∨
    (∃ o, s.engineNext = true ∧ s.regs.phase = .run ∧ Operation.ofOp s.regs.op = some o ∧
      t.regs = s.regs.advance o) ∨
    (∃ idx v es, s.script = .host (.write idx v) :: es ∧ t.regs = s.regs.hostWritten idx v) ∨
    (s.resetNext = true ∧ t.regs = Regs.reset) := by
  rcases step_cases h with ⟨es, hs, he⟩ | ⟨idx, es, hs, rfl⟩ | ⟨idx, v, es, hs, rfl⟩ | ⟨p, es, hs, rfl⟩ | ⟨es, hs, hp⟩
  · rcases engineStep_cases he with ⟨_, rfl⟩ | ⟨o, hp, ho, rfl⟩
    · exact .inl rfl
    · refine .inr (.inl ⟨o, ?_, hp, ho, rfl⟩)
      rcases hs with ⟨hs, _⟩ | hs <;> simp [State.engineNext, hs]
  · exact .inl rfl
  · exact .inr (.inr (.inl ⟨idx, v, es, hs, rfl⟩))
  · exact .inr (.inr (.inr ⟨by simp [State.resetNext, hs, Event.notReset], by simp⟩))
  · left
    cases hb : s.regs.busy
    · rw [poll_idle (by simpa using hb)] at hp
      injection hp with hp
      simp [← hp]
    · rw [poll_busy (by simpa using hb)] at hp
      injection hp with hp
      simp [← hp]

/-- A step that takes a host write. -/
theorem step_write {s : State} {idx : SlotIdx} {v : Word} {es : List Event}
    (h : s.script = .host (.write idx v) :: es) :
    step s = .next ((s.withScript es).withRegs (s.regs.hostWritten idx v)) := by
  rw [step_event h, runEvent, transact, hostWrite_eq, State.withScript_regs]

/-- A step that takes a host read. -/
theorem step_read {s : State} {idx : SlotIdx} {es : List Event} (h : s.script = .host (.read idx) :: es) :
    step s = .next ((s.withScript es).record idx (hostRead s.regs idx)) := by
  rw [step_event h, runEvent, transact, State.withScript_regs]

/-- A step that is the engine's, while it runs an operation. -/
theorem step_engine {s : State} {o : Operation} {es : List Event}
    (h : s.script = [] ∧ es = [] ∨ s.script = .engine :: es) (hp : s.regs.phase = .run)
    (ho : Operation.ofOp s.regs.op = some o) :
    step s = .next ((s.withScript es).withRegs (s.regs.advance o)) := by
  rcases h with ⟨h, rfl⟩ | h
  · rw [step_empty h, engineStep_run hp ho, ← h, State.withScript_self]
  · rw [step_event h, runEvent, engineStep_run (by simpa using hp) (by simpa using ho), State.withScript_regs]

/-- A host write of a command word while idle. -/
theorem hostWritten_command {r : Regs} {c : Word} {i : Instr} (hb : r.busy = false) (hd : decode c = .instr i) :
    r.hostWritten 8#4 c = acceptEffect i r := by
  simp [Regs.hostWritten, hb, hd]

/-- A host write while busy. -/
theorem hostWritten_busy {r : Regs} (hb : r.busy = true) (idx : SlotIdx) (v : Word) :
    r.hostWritten idx v = if idx.toNat ≤ 8 then r.flagBusyError else r := by
  simp [Regs.hostWritten, hb]

/-! ### Runs of several steps -/

@[simp] theorem stepN_zero (s : State) : stepN 0 s = .next s := rfl

theorem stepN_succ_of_step {s t : State} (k : Nat) (h : step s = .next t) : stepN (k + 1) s = stepN k t := by
  simp [stepN, h]

theorem stepN_add {s t : State} {m : Nat} (n : Nat) (h : stepN m s = .next t) : stepN (m + n) s = stepN n t := by
  induction m generalizing s with
  | zero =>
    injection h with h
    simp [h]
  | succ m ih =>
    rw [Nat.succ_add]
    cases hs : step s with
    | next u =>
      rw [stepN_succ_of_step _ hs] at h ⊢
      exact ih h
    | fault f => simp [stepN, hs] at h
    | refused f => simp [stepN, hs] at h

end Sys2Proof.Machine
end

