-- ==== Sys2Proof/Laws/PerInstr.lean ====
section
/-! SUPPORT. Statements about every instruction, one lemma per constructor. -/

namespace Sys2Proof.Laws.RoundTrip

/-- The command word of the instruction has well-formed fields and decodes to it, and it is the word of the opcode
table (30_encoding.md R70 to R72). -/
def Statement (i : Instr) : Prop :=
  (CmdFields.ofWord (encode i)).wellFormed = true ∧ decode (encode i) = .instr i ∧ encode i = i.matchWord

theorem nop : Statement .nop := by unfold Statement; decide
theorem encrypt : Statement .encrypt := by unfold Statement; decide
theorem decrypt : Statement .decrypt := by unfold Statement; decide
theorem toToken : Statement .toToken := by unfold Statement; decide
theorem fromToken : Statement .fromToken := by unfold Statement; decide

end Sys2Proof.Laws.RoundTrip
end

