-- ==== Sys2Proof/Laws/Run.lean ====
section
/-! SUPPORT. The engine alone: the registers after some iteration steps, and the run of an operation to its end
(40_sequencer.md R96, R98). -/

namespace Sys2Proof.Machine

/-- The registers after `k` iteration steps of operation `o`. -/
def Regs.iterated (r : Regs) (o : Operation) (k : Nat) : Regs :=
  { r with
    v0 := ((o.iteration Config.params r.key)^[k] r.working).v0
    v1 := ((o.iteration Config.params r.key)^[k] r.working).v1
    sum := ((o.iteration Config.params r.key)^[k] r.working).sum
    iter := r.iter - BitVec.ofNat 32 k }

@[simp] theorem Regs.iterated_zero (r : Regs) (o : Operation) : r.iterated o 0 = r := by
  simp [Regs.iterated, Regs.working]

/-- `ITER` counts down without wrapping while the steps are no more than it held. -/
theorem Regs.iterated_iter (r : Regs) (o : Operation) {k : Nat} (h : k ≤ r.iter.toNat) :
    (r.iterated o k).iter.toNat = r.iter.toNat - k := by
  have := r.iter.isLt
  simp only [Regs.iterated, BitVec.toNat_sub, BitVec.toNat_ofNat]
  omega

theorem Regs.iterate_iterated (r : Regs) (o : Operation) (k : Nat) :
    (r.iterated o k).iterate o = r.iterated o (k + 1) := by
  simp only [Regs.iterated, Regs.iterate, Regs.working, Function.iterate_succ_apply']
  congr 1
  rw [BitVec.ofNat_add]
  grind

/-- An engine step while `ITER` is not 0. -/
theorem Regs.advance_iterated (r : Regs) (o : Operation) {k : Nat} (h : k < r.iter.toNat) :
    (r.iterated o k).advance o = r.iterated o (k + 1) := by
  rw [Regs.advance_nonzero, Regs.iterate_iterated]
  intro h0
  have hk := r.iterated_iter o h.le
  simp only [h0, BitVec.toNat_ofNat] at hk
  omega

/-- The iteration steps of a running operation, with nothing listed. -/
theorem stepN_iterated {s : State} {o : Operation} (hs : s.script = []) (hp : s.regs.phase = .run)
    (ho : Operation.ofOp s.regs.op = some o) {k : Nat} (hk : k ≤ s.regs.iter.toNat) :
    stepN k s = .next (s.withRegs (s.regs.iterated o k)) := by
  induction k with
  | zero => simp
  | succ k ih =>
    rw [stepN_add 1 (ih (by omega)), stepN_succ_of_step 0 (t := s.withRegs (s.regs.iterated o (k + 1)))]
    · rfl
    · rw [step_empty (by simpa using hs), engineStep_run (o := o) (by exact hp) (by exact ho)]
      simp [Regs.advance_iterated _ _ (Nat.lt_of_succ_le hk)]

/-- A running operation to its end: the iteration steps that are left, and the finish step. -/
theorem stepN_finish {s : State} {o : Operation} (hs : s.script = []) (hp : s.regs.phase = .run)
    (ho : Operation.ofOp s.regs.op = some o) :
    stepN (s.regs.iter.toNat + 1) s = .next (s.withRegs ((s.regs.iterated o s.regs.iter.toNat).finish o)) := by
  rw [stepN_add 1 (stepN_iterated hs hp ho le_rfl),
    stepN_succ_of_step 0 (t := s.withRegs ((s.regs.iterated o s.regs.iter.toNat).finish o))]
  · rfl
  · rw [step_empty (by simpa using hs), engineStep_run (o := o) (by exact hp) (by exact ho)]
    simp only [State.withRegs_regs, State.withRegs_withRegs]
    rw [Regs.advance_zero]
    apply BitVec.eq_of_toNat_eq
    rw [Regs.iterated_iter _ _ le_rfl]
    simp

end Sys2Proof.Machine
end

