-- ==== Sys2Proof/Tests/Slice0.lean ====
section
/-! SUPPORT. The model's own tests: expected values from the encodings of 30_encoding.md and from 95_test_vectors.md
(row numbers in the docstrings); and, for every obligation with hypotheses, a state that meets them. -/

namespace Sys2Proof.Tests

open Sys2Proof Sys2Proof.Machine

/-! ### Well-formed command words (R70, R75) -/

theorem test_smoke_good : CmdFields.wellFormed ⟨0#29, 4#3⟩ = true := by decide
theorem test_smoke_zero_field_set : CmdFields.wellFormed ⟨1#29, 1#3⟩ = false := by decide
theorem test_smoke_opcode_reserved : CmdFields.wellFormed ⟨0#29, 5#3⟩ = false := by decide

/-! ### Decoding: words written out from R70 and R72 -/

theorem test_decode_nop : decode 0b00000000000000000000000000000000#32 = .instr .nop := by decide
theorem test_decode_encrypt : decode 0b00000000000000000000000000000001#32 = .instr .encrypt := by decide
theorem test_decode_decrypt : decode 0b00000000000000000000000000000010#32 = .instr .decrypt := by decide
theorem test_decode_toToken : decode 0b00000000000000000000000000000011#32 = .instr .toToken := by decide
theorem test_decode_fromToken : decode 0b00000000000000000000000000000100#32 = .instr .fromToken := by decide

/-- S9, S10, S11, S12, S13 -/
theorem test_decode_reserved :
    decode 0x00000005#32 = .reserved .opcodeReserved ∧ decode 0x00000007#32 = .reserved .opcodeReserved ∧
    decode 0x00000009#32 = .reserved .zeroFieldSet ∧ decode 0x80000000#32 = .reserved .zeroFieldSet ∧
    decode 0xFFFFFFFF#32 = .reserved .zeroFieldSet := by decide

/-- R77: a command is 32 bits; a set bit above them is no command. -/
theorem test_decodeTableWord :
    decodeTableWord 32 4 = some .fromToken ∧ decodeTableWord 32 6 = none ∧
    decodeTableWord 64 (2 ^ 32 + 1) = none := by decide

/-! ### Small states -/

/-- The key `k1` of 95_test_vectors.md. -/
def k1 : Key := #v[0x03020100#32, 0x07060504#32, 0x0B0A0908#32, 0x0F0E0D0C#32]

/-- The zero key. -/
def k0 : Key := #v[0#32, 0#32, 0#32, 0#32]

/-- The block `b1` of 95_test_vectors.md. -/
def b1 : Block := #v[0x01234567#32, 0x89ABCDEF#32]

/-- An idle block with the key, block and round count given, and transitions to come. -/
def idle (k : Key) (b : Block) (n : Word) (es : List Event) : State :=
  ⟨{ Regs.reset with key := k, blk := b, rounds := n }, es, [], 0⟩

/-- A running operation. -/
def running (op : BitVec 3) (v0 v1 sum iter : Word) (es : List Event) : State :=
  ⟨{ Regs.reset with
      key := k1, op := op, busy := true, phase := .run, v0 := v0, v1 := v1, sum := sum, iter := iter }, es, [], 0⟩

/-- The state, where the step answers one. -/
def after : Result → Option State
  | .next t => some t
  | .fault _ => none
  | .refused _ => none

/-- A register's value after a step. -/
def look {α : Type} (x : Result) (f : Regs → α) : Option α := (after x).map fun t => f t.regs

/-! ### Single steps (95_test_vectors.md, sections 3 and 6) -/

/-- S1, S2, S3 and S21 -/
theorem test_reads_at_reset :
    hostRead Regs.reset 9#4 = 0#32 ∧ hostRead Regs.reset 6#4 = 64#32 ∧ hostRead Regs.reset 8#4 = 0#32 ∧
    hostRead Regs.reset 11#4 = 0#32 ∧ hostRead Regs.reset 15#4 = 0#32 := by decide

/-- S4 -/
theorem test_nop_is_empty :
    after (step (State.reset.withFetchWord 32 0)) = some State.reset := by decide

/-- S17 -/
theorem test_nop_while_busy :
    look (exec .nop (running 1#3 0#32 0#32 0#32 5#32 [])) (fun r => (r.errBusy, r.op, r.iter)) =
      some (true, 1#3, 5#32) := by decide

/-- S5, with the block `b1` -/
theorem test_encrypt_accepted :
    look (exec .encrypt (idle k1 b1 64#32 [])) (fun r => (r.op, r.v0, r.v1, r.sum, r.iter, statusWord r)) =
      some (1#3, 0x01234567#32, 0x89ABCDEF#32, 0#32, 64#32, 1#32) := by decide

/-- S6 -/
theorem test_decrypt_accepted :
    look (exec .decrypt (idle k1 b1 32#32 [])) (fun r => (r.op, r.v0, r.v1, r.sum, r.iter, statusWord r)) =
      some (2#3, 0x01234567#32, 0x89ABCDEF#32, 0xC6EF3720#32, 32#32, 1#32) := by decide +kernel

/-- S7 -/
theorem test_toToken_accepted :
    look (exec .toToken ⟨{ Regs.reset with ident := 1#32 }, [], [], 0⟩)
        (fun r => (r.op, r.v0, r.v1, r.sum, r.iter, statusWord r)) =
      some (3#3, 1#32, 0x337D23C2#32, 0#32, 64#32, 1#32) := by decide +kernel

/-- S8 -/
theorem test_fromToken_accepted :
    look (exec .fromToken (idle k0 #v[0xB7F81015#32, 0x131A53ED#32] 7#32 []))
        (fun r => (r.op, r.v0, r.v1, r.sum, r.iter, statusWord r)) =
      some (4#3, 0xB7F81015#32, 0x131A53ED#32, 0x8DDE6E40#32, 64#32, 1#32) := by decide +kernel

/-- S9: idle with STATUS 2 -/
theorem test_reserved_command :
    look (step ⟨{ Regs.reset with done := true, op := 1#3 }, [.host (.write 8#4 5#32)], [], 0⟩)
        (fun r => (statusWord r, r.op, r.phase)) =
      some (0x12#32, 1#3, .idle) := by decide

/-- S14 and S16 -/
theorem test_write_while_busy :
    look (step (running 1#3 0#32 0#32 0#32 5#32 [.host (.write 0#4 0x12345678#32)]))
        (fun r => (r.key[0], statusWord r)) = some (0x03020100#32, 9#32) ∧
    look (step (running 1#3 0#32 0#32 0#32 5#32 [.host (.write 8#4 7#32)])) statusWord = some 9#32 := by decide

/-- S18, S19 and S20 -/
theorem test_ignored_writes :
    look (step (running 1#3 0#32 0#32 0#32 5#32 [.host (.write 9#4 0xFFFFFFFF#32)])) statusWord = some 1#32 ∧
    look (step (running 1#3 0#32 0#32 0#32 5#32 [.host (.write 12#4 1#32)])) statusWord = some 1#32 ∧
    after (step (State.reset.withScript [.host (.write 10#4 0x12345678#32)])) = some State.reset := by decide

/-- Section 4.2, as one engine step of ENCRYPT: E8's iteration -/
theorem test_encrypt_iteration :
    look (engineStep (running 1#3 0x01234567#32 0x89ABCDEF#32 0#32 64#32 []))
        (fun r => (r.v0, r.v1, r.sum, r.iter)) =
      some (0x2CC294F5#32, 0xE1004418#32, 0x9E3779B9#32, 63#32) := by decide +kernel

/-- Program P4, line 9, as one engine step of DECRYPT -/
theorem test_decrypt_iteration :
    look (engineStep (running 2#3 0x89F48DFA#32 0x448539CB#32 0x3C6EF372#32 2#32 []))
        (fun r => (r.v0, r.v1, r.sum, r.iter)) =
      some (0x2CC294F5#32, 0xE1004418#32, 0x9E3779B9#32, 1#32) := by decide +kernel

/-- S22, for TO_TOKEN -/
theorem test_toToken_finish :
    look (engineStep (running 3#3 5#32 6#32 0x8DDE6E40#32 0#32 [])) (fun r => (r.blk, statusWord r, r.phase)) =
      some (#v[5#32, 6#32], 2#32, .idle) := by decide

/-- S23 and S24 -/
theorem test_fromToken_finish :
    look (engineStep (running 4#3 1#32 0x337D23C2#32 0#32 0#32 [])) (fun r => (r.result, statusWord r)) =
      some (1#32, 6#32) ∧
    look (engineStep (running 4#3 1#32 0x337D23C3#32 0#32 0#32 [])) (fun r => (r.result, statusWord r)) =
      some (0#32, 2#32) := by decide +kernel

/-- S26 -/
theorem test_engine_idle : after (step State.reset) = some State.reset := by decide

/-- S29 -/
theorem test_reset_while_busy :
    after (step (running 4#3 1#32 2#32 3#32 9#32 [.reset none])) = some State.reset := by decide

/-! ### Vectors (95_test_vectors.md, sections 2, 4, 5 and 6) -/

/-- Section 4.1: a rotate or an arithmetic shift would differ -/
theorem test_mix :
    mix 0x80000000#32 = 0x84000000#32 ∧ mix 0xFFFFFFFF#32 = 0xF800000E#32 ∧
    mix 0x89ABCDEF#32 = 0x289D4E8E#32 := by decide

/-- E10, E11 and section 2's second row -/
theorem test_encrypt_vectors :
    encrypt Config.params 0x01234567#32 0x89ABCDEF#32 k1 64 = (0x19DDD9D8#32, 0x1B3956E0#32) ∧
    encrypt Config.params 0xFFFFFFFF#32 0xFFFFFFFF#32
        #v[0xFFFFFFFF#32, 0xFFFFFFFF#32, 0xFFFFFFFF#32, 0xFFFFFFFF#32] 1 = (0x07FFFFF0#32, 0x19F77956#32) ∧
    encrypt Config.params 0x41424344#32 0x45464748#32
        #v[0x00010203#32, 0x04050607#32, 0x08090A0B#32, 0x0C0D0E0F#32] 32 = (0x497DF3D0#32, 0x72612CB5#32) := by
  decide +kernel

/-- D7, D9 and D10 -/
theorem test_decrypt_vectors :
    decrypt Config.params 0#32 0#32 k0 1 = (0x7EB15977#32, 0x61C88647#32) ∧
    decrypt Config.params 0#32 0#32 k0 64 = (0x7AAA1184#32, 0x7109A767#32) ∧
    decrypt Config.params 0x2CC294F5#32 0xE1004418#32 k1 2 = (0x981399E0#32, 0x6360BB29#32) := by decide +kernel

/-- Section 5.1 -/
theorem test_chk :
    chk Config.params 0#32 = 0x1AC2F23B#32 ∧ chk Config.params 0xDEADBEEF#32 = 0xEB946144#32 ∧
    chk Config.params 0xFFFFFFFF#32 = 0x0208C0B4#32 := by decide +kernel

/-- T2 and T6 -/
theorem test_toToken_vectors :
    toToken Config.params 1#32 k0 = (0xB7F81015#32, 0x131A53ED#32) ∧
    toToken Config.params 0x3039#32 k1 = (0x74354C28#32, 0x387A6829#32) := by decide +kernel

/-- V1, V6, V7 and V12 -/
theorem test_fromToken_vectors :
    fromToken Config.params 0xEE33BDE6#32 0xE84F63B6#32 k0 = (0#32, true) ∧
    fromToken Config.params 0x74354C28#32 0x387A6829#32 k1 = (0x3039#32, true) ∧
    fromToken Config.params 0xB7F81015#32 0x131A53ED#32 #v[1#32, 0#32, 0#32, 0#32] = (0#32, false) ∧
    fromToken Config.params 0#32 0#32 k0 = (0#32, false) := by decide +kernel

/-- M1, M2, M5, M7 and M13 -/
theorem test_byte_views :
    unpack32 #v[0x67#8, 0x45#8, 0x23#8, 0x01#8] = 0x01234567#32 ∧
    pack32 0x89ABCDEF#32 = #v[0xEF#8, 0xCD#8, 0xAB#8, 0x89#8] ∧
    keyOfBytes #v[1#8, 0#8, 0#8, 0#8, 0#8, 0#8, 0#8, 0#8, 0#8, 0#8, 0#8, 0#8, 0#8, 0#8, 0#8, 0#8] =
      #v[1#32, 0#32, 0#32, 0#32] ∧
    blockOfBytes #v[0x15#8, 0x10#8, 0xF8#8, 0xB7#8, 0xED#8, 0x53#8, 0x1A#8, 0x13#8] =
      #v[0xB7F81015#32, 0x131A53ED#32] ∧
    slotOfOffset 0x24 4 = some 9#4 ∧ slotOfOffset 0x25 4 = none ∧ slotOfOffset 64 4 = none := by decide

/-- R78: `wr CMD, ENCRYPT` is `(1, 8, 0x00000001)` -/
theorem test_tuple :
    Transaction.tuple (.write SlotName.CMD.idx 1#32) 0#32 = 0b1#1 ++ 0b1000#4 ++ 1#32 ∧
    Transaction.ofTuple (0b0#1 ++ 0b1001#4 ++ 7#32) = .read 9#4 := by decide

/-! ### A state for every obligation with hypotheses -/

/-- The invariants in a running state that meets them: ENCRYPT under `k1`, one iteration done, `ERR_BUSY` set. -/
def mid (es : List Event) : State :=
  ⟨{ Regs.reset with
      key := k1, blk := b1, op := 1#3, busy := true, phase := .run, errBusy := true, errCmd := true
      v0 := 0x2CC294F5#32, v1 := 0xE1004418#32, sum := 0x9E3779B9#32, iter := 63#32 }, es, [], 0⟩

/-- The same operation before its finish step. -/
def last (es : List Event) : State :=
  ⟨{ Regs.reset with
      key := k1, blk := b1, op := 1#3, busy := true, phase := .run
      v0 := 0x19DDD9D8#32, v1 := 0x1B3956E0#32, sum := 0x8DDE6E40#32, iter := 0#32 }, es, [], 0⟩

/-- An idle block after an operation. -/
def finished (es : List Event) : State :=
  ⟨{ Regs.reset with key := k1, blk := b1, op := 1#3, done := true }, es, [], 0⟩

theorem witness_inv_finished (es : List Event) : (finished es).regs.Inv := by
  have h : (finished []).regs.Inv := by constructor <;> decide
  exact h

theorem witness_inv_mid (es : List Event) : (mid es).regs.Inv := by
  have h : (mid []).regs.Inv := by constructor <;> decide
  exact h

theorem witness_inv_last (es : List Event) : (last es).regs.Inv := by
  have h : (last []).regs.Inv := by constructor <;> decide
  exact h

theorem witness_sumInv_mid : (mid []).regs.SumInv := by
  constructor <;> decide +kernel

/-- for `EveryStepKeepsInvariant` -/
theorem witness_everyStepKeepsInvariant :
    (mid []).regs.Inv ∧ (∃ t, step (mid []) = .next t) ∧ (mid []).resetNext = false ∧
      (mid []).regs.errBusy = true ∧ (mid []).regs.errCmd = true :=
  ⟨witness_inv_mid [], ⟨_, rfl⟩, rfl, rfl, rfl⟩

/-- for `EveryStepKeepsAccumulatorInStep` -/
theorem witness_everyStepKeepsAccumulatorInStep :
    (mid []).regs.Inv ∧ (mid []).regs.SumInv ∧ ∃ t, step (mid []) = .next t :=
  ⟨witness_inv_mid [], witness_sumInv_mid, ⟨_, rfl⟩⟩

/-- for `NoStepStopsUnderInvariant` -/
theorem witness_noStepStopsUnderInvariant : (mid [.reset none]).regs.Inv := witness_inv_mid _

/-- for `ResetCycleFromEveryState`: no transaction, a write, a read presented -/
theorem witness_resetCycleFromEveryState :
    (mid [.reset none]).script = .reset none :: [] ∧
    (mid [.reset (some (.write 8#4 1#32))]).script = .reset (some (.write 8#4 1#32)) :: [] ∧
    (∀ idx, some (Transaction.write 8#4 1#32) ≠ some (.read idx)) ∧
    (mid [.reset (some (.read 15#4))]).script = .reset (some (.read 15#4)) :: [] :=
  ⟨rfl, rfl, (by intro idx h; cases h), rfl⟩

/-- for `OperationEndsOnlyByFinishOrReset`: by the finish step, and by reset -/
theorem witness_operationEndsOnlyByFinishOrReset :
    (∃ t, step (last []) = .next t ∧ (last []).regs.busy = true ∧ t.regs.busy = false) ∧
    ∃ t, step (mid [.reset none]) = .next t ∧ (mid [.reset none]).regs.busy = true ∧ t.regs.busy = false :=
  ⟨⟨_, rfl, rfl, rfl⟩, ⟨_, rfl, rfl, rfl⟩⟩

/-- for `StepTakesNextListedTransition`: each of its five clauses -/
theorem witness_stepTakesNextListedTransition :
    (mid []).script = [] ∧ (mid [.engine]).script = .engine :: [] ∧
    (mid [.host (.read 9#4)]).script = .host (.read 9#4) :: [] ∧
    (mid [.reset none]).script = .reset none :: [] ∧ (mid [.wait]).script = .wait :: [] :=
  ⟨rfl, rfl, rfl, rfl, rfl⟩

/-- for `RegistersChangeOnlyForNamedCauses`: a write to `IDENT` while idle meets the premise of every clause but its
own, one to `ROUNDS` that of the `IDENT` clause, and an iteration step that of the clause on `ITER` -/
theorem witness_registersChangeOnlyForNamedCauses :
    (∃ t, step (State.reset.withScript [.host (.write 7#4 5#32)]) = .next t) ∧
    (State.reset.withScript [.host (.write 7#4 5#32)]).resetNext = false ∧
    (∀ j : Fin 4, (State.reset.withScript [.host (.write 7#4 5#32)]).writesIdle (BitVec.ofNat 4 j.val) = false) ∧
    (∀ j : Fin 2,
      (State.reset.withScript [.host (.write 7#4 5#32)]).writesIdle (BitVec.ofNat 4 (4 + j.val)) = false) ∧
    (State.reset.withScript [.host (.write 7#4 5#32)]).writesIdle 6#4 = false ∧
    (State.reset.withScript [.host (.write 7#4 5#32)]).finishNext = false ∧
    (State.reset.withScript [.host (.write 7#4 5#32)]).acceptsNext = false ∧
    (State.reset.withScript [.host (.write 7#4 5#32)]).iteratesNext = false ∧
    (State.reset.withScript [.host (.write 7#4 5#32)]).busyMisuse = false ∧
    (State.reset.withScript [.host (.write 7#4 5#32)]).cmdMisuse = false ∧
    (∃ t, step (State.reset.withScript [.host (.write 6#4 5#32)]) = .next t) ∧
    (State.reset.withScript [.host (.write 6#4 5#32)]).writesIdle 7#4 = false ∧
    (∃ t, step (mid []) = .next t) ∧ (mid []).resetNext = false ∧ (mid []).iteratesNext = true :=
  ⟨⟨_, rfl⟩, rfl, by decide, by decide, rfl, rfl, rfl, rfl, rfl, rfl, ⟨_, rfl⟩, rfl, ⟨_, rfl⟩, rfl, rfl⟩

/-- for `HostReadReturnsItsSlot`: any index, the last reserved slot among them, and the bound of that clause -/
theorem witness_hostReadReturnsItsSlot :
    (mid [.host (.read 15#4)]).script = .host (.read 15#4) :: [] ∧ 11 ≤ (11#4 : SlotIdx).toNat ∧
    11 ≤ (15#4 : SlotIdx).toNat := by decide

/-- for `HostWriteEffectBySlot`: each clause at the bounds of its slots -/
theorem witness_hostWriteEffectBySlot :
    (State.reset.withScript [.host (.write 3#4 5#32)]).script = .host (.write 3#4 5#32) :: [] ∧
    (State.reset.withScript [.host (.write 3#4 5#32)]).regs.busy = false ∧
    (0#4 : SlotIdx).toNat = (0 : Fin 4).val ∧ (3#4 : SlotIdx).toNat = (3 : Fin 4).val ∧
    (4#4 : SlotIdx).toNat = 4 + (0 : Fin 2).val ∧ (5#4 : SlotIdx).toNat = 4 + (1 : Fin 2).val ∧
    decode 4#32 = .instr .fromToken ∧ decode 5#32 = .reserved .opcodeReserved ∧
    (mid [.host (.write 8#4 5#32)]).regs.busy = true ∧ (8#4 : SlotIdx).toNat ≤ 8 ∧ 9 ≤ (9#4 : SlotIdx).toNat := by
  decide

/-- for `SlotWritesDoNotAlias` -/
theorem witness_slotWritesDoNotAlias :
    (State.reset.withScript [.host (.write 7#4 5#32)]).script = .host (.write 7#4 5#32) :: [] ∧
    (State.reset.withScript [.host (.write 7#4 5#32)]).regs.busy = false ∧ (7#4 : SlotIdx).toNat ≤ 7 ∧
    (8#4 : SlotIdx) ≠ 7#4 := by decide

/-- for `WriteWhileBusyIsDropped`: both sides of its bound -/
theorem witness_writeWhileBusyIsDropped :
    (mid [.host (.write 8#4 1#32)]).script = .host (.write 8#4 1#32) :: [] ∧
    (mid [.host (.write 8#4 1#32)]).regs.busy = true ∧ (8#4 : SlotIdx).toNat ≤ 8 ∧
    9 ≤ (9#4 : SlotIdx).toNat ∧ (10#4 : SlotIdx) ≠ 9#4 := by decide

/-- for `ReservedCommandSetsErrCmdOnly`: idle and busy, with the least and the greatest reserved word -/
theorem witness_reservedCommandSetsErrCmdOnly :
    (State.reset.withScript [.host (.write 8#4 5#32)]).script = .host (.write 8#4 5#32) :: [] ∧
    4 < (5#32 : Word).toNat ∧ (State.reset.withScript [.host (.write 8#4 5#32)]).regs.busy = false ∧
    4 < (0xFFFFFFFF#32 : Word).toNat ∧ (mid [.host (.write 8#4 0xFFFFFFFF#32)]).regs.busy = true := by decide

/-- for `ErrorFlagsRecordExactlyMisuse`: each misuse -/
theorem witness_errorFlagsRecordExactlyMisuse :
    (∃ t, step (last [.host (.write 8#4 7#32)]) = .next t) ∧
    (last [.host (.write 8#4 7#32)]).resetNext = false ∧ (last [.host (.write 8#4 7#32)]).busyMisuse = true ∧
    (∃ t, step (State.reset.withScript [.host (.write 8#4 7#32)]) = .next t) ∧
    (State.reset.withScript [.host (.write 8#4 7#32)]).cmdMisuse = true :=
  ⟨⟨_, rfl⟩, rfl, rfl, ⟨_, rfl⟩, rfl⟩

/-- for `StatusFlagsFollowAcceptanceAndFinish`: an acceptance, a finish step, a write that is neither,
a reset, a write and a read of slot 9 -/
theorem witness_statusFlagsFollowAcceptanceAndFinish :
    (∃ t, step (State.reset.withScript [.host (.write 8#4 1#32)]) = .next t) ∧
    (State.reset.withScript [.host (.write 8#4 1#32)]).acceptsNext = true ∧
    (∃ t, step (last []) = .next t) ∧ (last []).finishNext = true ∧ (last []).resetNext = false ∧
    (∃ t, step (mid [.host (.write 8#4 1#32)]) = .next t) ∧
    (mid [.host (.write 8#4 1#32)]).acceptsNext = false ∧
    (∃ t, step (mid [.reset none]) = .next t) ∧ (mid [.reset none]).resetNext = true ∧
    (mid [.host (.write 9#4 1#32)]).script = .host (.write 9#4 1#32) :: [] ∧
    (mid [.host (.read 9#4)]).script = .host (.read 9#4) :: [] :=
  ⟨⟨_, rfl⟩, rfl, ⟨_, rfl⟩, rfl, rfl, ⟨_, rfl⟩, rfl, ⟨_, rfl⟩, rfl, rfl, rfl⟩

/-- for `NothingReadableChangesWhileBusy`: a step after which the operation still runs -/
theorem witness_nothingReadableChangesWhileBusy :
    ∃ t, step (mid []) = .next t ∧ (mid []).regs.busy = true ∧ (mid []).resetNext = false ∧ t.regs.busy = true ∧
      (4#4 : SlotIdx) ≠ 9#4 :=
  ⟨_, rfl, rfl, rfl, rfl, by decide⟩

/-- for `HostComesBeforeEngineInOneCycle`: the clauses on any cycle, in the cycle of the finish step: a write to each
side of the bound of its clause, a read of slot 4, and no transaction -/
theorem witness_hostComesBeforeEngineInAnyCycle :
    (PortSignals.mk false true true 8#4 1#32).rst = false ∧
    (PortSignals.mk false true true 8#4 1#32).transaction = some (.write 8#4 1#32) ∧
    (last (PortSignals.events ⟨false, true, true, 8#4, 1#32⟩ true ++ [])).script =
      PortSignals.events ⟨false, true, true, 8#4, 1#32⟩ true ++ [] ∧
    (last (PortSignals.events ⟨false, true, true, 8#4, 1#32⟩ false ++ [])).script =
      PortSignals.events ⟨false, true, true, 8#4, 1#32⟩ false ++ [] ∧
    (last (PortSignals.events ⟨false, true, true, 9#4, 1#32⟩ true ++ [])).regs.Inv ∧
    (PortSignals.mk false true true 9#4 1#32).transaction = some (.write 9#4 1#32) ∧
    (last (PortSignals.events ⟨false, true, true, 9#4, 1#32⟩ true ++ [])).regs.busy = true ∧
    (last (PortSignals.events ⟨false, true, false, 4#4, 0#32⟩ true ++ [])).regs.Inv ∧
    (PortSignals.mk false true false 4#4 0#32).transaction = some (.read 4#4) ∧
    (PortSignals.mk false false true 4#4 0#32).transaction = none ∧
    (last (PortSignals.events ⟨false, false, true, 4#4, 0#32⟩ true ++ [])).script = .engine :: [] :=
  ⟨rfl, rfl, rfl, rfl, witness_inv_last _, rfl, rfl, witness_inv_last _, rfl, rfl, rfl⟩

/-- for `HostComesBeforeEngineInOneCycle`: its clauses on the cycle of the finish step, and reset -/
theorem witness_hostComesBeforeEngineInOneCycle :
    (last (PortSignals.events ⟨false, true, true, 8#4, 1#32⟩ true ++ [])).regs.Inv ∧
    (last (PortSignals.events ⟨false, true, true, 8#4, 1#32⟩ true ++ [])).regs.phase = .run ∧
    (last (PortSignals.events ⟨false, true, true, 8#4, 1#32⟩ true ++ [])).regs.iter = 0#32 ∧
    (last (PortSignals.events ⟨false, true, false, 9#4, 0#32⟩ true ++ [])).script =
      [.host (.read 9#4), .engine] ∧
    (PortSignals.mk true true true 8#4 1#32).rst = true :=
  ⟨witness_inv_last _, rfl, rfl, rfl, rfl⟩

/-- for `StepRunsTheDecodedCommand` -/
theorem witness_stepRunsTheDecodedCommand :
    (mid [.host (.write 8#4 3#32)]).script = .host (.write 8#4 3#32) :: [] ∧ decode 3#32 = .instr .toToken ∧
    decodeTableWord 32 3 = some .toToken := by decide

/-- for `AcceptanceLoadsWorkingRegisters`, `NopChangesNothingWhileIdle`, `CommandsWhileBusyAreDropped` and the four
statements of whole operations: an idle and a busy state -/
theorem witness_idle_and_busy :
    (idle k1 b1 64#32 []).regs.busy = false ∧ (mid []).regs.busy = true ∧ (Instr.encrypt ≠ Instr.nop) := by decide

/-- for `EngineMovesExactlyWhileRunning`: idle and running -/
theorem witness_engineMovesExactlyWhileRunning :
    (finished []).regs.Inv ∧ (finished []).regs.phase = .idle ∧ (mid []).regs.Inv ∧ (mid []).regs.phase = .run :=
  ⟨witness_inv_finished [], rfl, witness_inv_mid [], rfl⟩

/-- for `EncryptIterationStep` and `DecryptIterationStep`: each operation, and the last iteration of DECRYPT -/
theorem witness_iterationSteps :
    (mid []).regs.phase = .run ∧ (mid []).regs.iter ≠ 0#32 ∧ (mid []).regs.op = 1#3 ∧
    (running 2#3 1#32 2#32 0x9E3779B9#32 1#32 []).regs.phase = .run ∧
    (running 2#3 1#32 2#32 0x9E3779B9#32 1#32 []).regs.iter = 1#32 ∧
    (running 2#3 1#32 2#32 0x9E3779B9#32 1#32 []).regs.op = 2#3 ∧
    (running 2#3 1#32 2#32 0x9E3779B9#32 1#32 []).regs.SumInv :=
  ⟨rfl, by decide, rfl, rfl, rfl, rfl, by constructor <;> decide +kernel⟩

/-- for `FinishStepDelivers`: each clause, a matching and a mismatching checksum -/
theorem witness_finishStepDelivers :
    (last []).regs.phase = .run ∧ (last []).regs.iter = 0#32 ∧ (last []).regs.op = 1#3 ∧
    (running 4#3 1#32 0x337D23C2#32 0#32 0#32 []).regs.op = 4#3 ∧
    0x18BA3187#32 * 1#32 + 0x1AC2F23B#32 = 0x337D23C2#32 ∧
    0x18BA3187#32 * 1#32 + 0x1AC2F23B#32 ≠ 0x337D23C3#32 := by decide +kernel

/-- for `InterleavingDoesNotChangeOutcome`: two iterations with a read and a dropped write between them -/
theorem witness_interleavingDoesNotChangeOutcome :
    let es : List Event := [.host (.read 4#4), .engine, .host (.write 0#4 9#32), .engine]
    let s := idle k1 b1 2#32 (.host (.write 8#4 (encode .encrypt)) :: (es ++ .engine :: []))
    Instr.encrypt ≠ .nop ∧ s.regs.busy = false ∧
      s.script = .host (.write 8#4 (encode .encrypt)) :: (es ++ .engine :: []) ∧
      (∀ e ∈ es, e.isPlain = true) ∧ es.count .engine = iterations .encrypt s.regs := by
  decide

/-- for `OperationTakesItsIterationsPlusOne`: both ends of the range of `k` -/
theorem witness_operationTakesItsIterationsPlusOne :
    Instr.fromToken ≠ .nop ∧ (idle k1 b1 2#32 []).regs.busy = false ∧
    0 ≤ iterations .fromToken (idle k1 b1 2#32 []).regs ∧ 64 ≤ iterations .fromToken (idle k1 b1 2#32 []).regs := by
  decide

/-- for `StepSequenceIndependentOfData`: two runs that differ in key, block and working words -/
theorem witness_stepSequenceIndependentOfData :
    (running 1#3 1#32 2#32 3#32 5#32 []).script = (running 1#3 7#32 8#32 9#32 5#32 []).script ∧
    (running 1#3 1#32 2#32 3#32 5#32 []).regs.SameControl (running 1#3 7#32 8#32 9#32 5#32 []).regs ∧
    ∃ t, stepN 1 (running 1#3 1#32 2#32 3#32 5#32 []) = .next t :=
  ⟨rfl, by constructor <;> rfl, ⟨_, rfl⟩⟩

/-- for `ResultsDependOnOperandsOnly`: equal operands, other registers different -/
theorem witness_resultsDependOnOperandsOnly :
    (idle k1 b1 2#32 []).regs.busy = false ∧ (idle k1 b1 9#32 []).regs.busy = false ∧
    (idle k1 b1 2#32 []).regs.key = (idle k1 b1 9#32 []).regs.key ∧
    (idle k1 b1 2#32 []).regs.ident = (idle k1 b1 9#32 []).regs.ident ∧
    (idle k1 b1 2#32 []).regs.blk = (idle k1 b1 9#32 []).regs.blk ∧
    (idle k1 b1 2#32 []).regs.rounds = (idle k1 b1 2#32 [.engine]).regs.rounds := by decide

/-- for `ZeroRoundsIsTheIdentity` (S30) -/
theorem witness_zeroRoundsIsTheIdentity :
    (idle k1 b1 0#32 []).regs.busy = false ∧ (idle k1 b1 0#32 []).regs.rounds = 0#32 := by decide

/-- for `AcceptedTokensAreExactlyMadeTokens`: V2 passes the check and V12 does not -/
theorem witness_acceptedTokensAreExactlyMadeTokens :
    chk Config.params (decrypt Config.params 0xB7F81015#32 0x131A53ED#32 k0 64).1 =
      (decrypt Config.params 0xB7F81015#32 0x131A53ED#32 k0 64).2 ∧
    chk Config.params (decrypt Config.params 0#32 0#32 k0 64).1 ≠ (decrypt Config.params 0#32 0#32 k0 64).2 := by
  decide +kernel

/-- for `TuplesAndOffsetsNameTransactions` and the clause of R75: the bounds of the slots' offsets -/
theorem witness_offsets : slotOfOffset 0 4 = some 0#4 ∧ slotOfOffset 60 4 = some 15#4 := by decide

/-- for `WaitTerminates`: busy and idle -/
theorem witness_waitTerminates :
    (mid [.wait]).regs.Inv ∧ (mid [.wait]).script = .wait :: [] ∧ (finished [.wait]).regs.Inv ∧
    (finished [.wait]).script = .wait :: [] :=
  ⟨witness_inv_mid _, rfl, witness_inv_finished _, rfl⟩

/-- for `EngineBecomesIdle`: an operation with transactions and a reset still listed -/
theorem witness_engineBecomesIdle :
    (mid [.host (.write 8#4 1#32), .engine, .reset none]).regs.Inv ∧
    ∀ e ∈ (mid [.host (.write 8#4 1#32), .engine, .reset none]).script, e ≠ .wait :=
  ⟨witness_inv_mid _, by decide⟩

/-- for `CipherCallsReturnTheirResults`, `CodecCallsReturnTheirResults`, `TokenRoundTripOnTheMachine` and
`CipherRoundTripOnTheMachine`: any script, after an earlier operation -/
theorem witness_calls (es : List Event) :
    (finished es).regs.Inv ∧ (finished es).regs.busy = false ∧ (finished es).script = es :=
  ⟨witness_inv_finished es, rfl, rfl⟩

/-- R79: the expansion of `from_token`, as the port sees it -/
theorem test_fromToken_call :
    scriptEvents (callFromToken #v[5#32, 6#32] #v[1#32, 2#32, 3#32, 4#32]) =
      [.host (.write 0#4 1#32), .host (.write 1#4 2#32), .host (.write 2#4 3#32), .host (.write 3#4 4#32),
        .host (.write 4#4 5#32), .host (.write 5#4 6#32), .host (.write 8#4 4#32), .wait, .host (.read 10#4),
        .host (.read 9#4)] := by decide

end Sys2Proof.Tests
end

section
/-! PROOFS for the family 10_state.md: the reset values (R36), the invariant (R37, R29), and the causes a step can
have, from which the frame of each register, the STATUS flags and the separation of the slots follow. -/

namespace Sys2Proof.Machine

/-! ### The bits of STATUS (R28) -/

@[simp] theorem flagWord_getElem (b : Bool) (i : Nat) (h : i < 32) : (flagWord b)[i] = (decide (i = 0) && b) := by
  cases i <;> cases b <;> simp [flagWord]

@[simp] theorem statusWord_bit_one (r : Regs) : (statusWord r)[1] = r.done := by simp [statusWord]
@[simp] theorem statusWord_bit_two (r : Regs) : (statusWord r)[2] = r.chkOk := by simp [statusWord]
@[simp] theorem statusWord_bit_three (r : Regs) : (statusWord r)[3] = r.errBusy := by simp [statusWord]
@[simp] theorem statusWord_bit_four (r : Regs) : (statusWord r)[4] = r.errCmd := by simp [statusWord]

theorem statusWord_reserved_bit (r : Regs) {i : Nat} (h : 5 ≤ i) : (statusWord r).getLsbD i = false := by
  by_cases hi : i < 32
  · rw [BitVec.getLsbD_eq_getElem hi]
    simp [statusWord]
    omega
  · exact BitVec.getLsbD_of_ge _ _ (by omega)

/-! ### Writes to the data slots (R53, R38) -/

theorem Regs.writeData_key_of_ne {r : Regs} {idx : SlotIdx} {v : Word} {j : Nat} (hj : j < 4)
    (h : idx.toNat ≠ j) : (r.writeData idx v).key[j] = r.key[j] := by
  unfold Regs.writeData
  split <;> simp_all

theorem Regs.writeData_blk_of_ne {r : Regs} {idx : SlotIdx} {v : Word} {j : Nat} (hj : j < 2)
    (h : idx.toNat ≠ 4 + j) : (r.writeData idx v).blk[j] = r.blk[j] := by
  unfold Regs.writeData
  split <;> simp [Vector.getElem_set] <;> omega

theorem Regs.writeData_rounds_of_ne {r : Regs} {idx : SlotIdx} {v : Word} (h : idx.toNat ≠ 6) :
    (r.writeData idx v).rounds = r.rounds := by
  unfold Regs.writeData
  split <;> simp_all

theorem Regs.writeData_ident_of_ne {r : Regs} {idx : SlotIdx} {v : Word} (h : idx.toNat ≠ 7) :
    (r.writeData idx v).ident = r.ident := by
  unfold Regs.writeData
  split <;> simp_all

@[simp] theorem statusWord_writeData (r : Regs) (idx : SlotIdx) (v : Word) :
    statusWord (r.writeData idx v) = statusWord r := by
  simp [statusWord]

theorem hostRead_writeData_same (r : Regs) {idx : SlotIdx} (v : Word) (h : idx.toNat ≤ 7) :
    hostRead (r.writeData idx v) idx = v := by
  unfold hostRead Regs.writeData
  split <;> simp_all
  omega

theorem hostRead_writeData_of_ne (r : Regs) {idx j : SlotIdx} (v : Word) (h : j ≠ idx) :
    hostRead (r.writeData idx v) j = hostRead r j := by
  have hne : idx.toNat ≠ j.toNat := fun e => h (BitVec.eq_of_toNat_eq e.symm)
  unfold hostRead
  split
  · exact Regs.writeData_key_of_ne (by omega) (by omega)
  · exact Regs.writeData_key_of_ne (by omega) (by omega)
  · exact Regs.writeData_key_of_ne (by omega) (by omega)
  · exact Regs.writeData_key_of_ne (by omega) (by omega)
  · exact Regs.writeData_blk_of_ne (by omega) (by omega)
  · exact Regs.writeData_blk_of_ne (by omega) (by omega)
  · exact Regs.writeData_rounds_of_ne (by omega)
  · exact Regs.writeData_ident_of_ne (by omega)
  · rw [Regs.writeData_op]
  · exact statusWord_writeData r idx v
  · exact Regs.writeData_result r idx v
  · rfl

theorem hostWritten_data {r : Regs} {idx : SlotIdx} (hb : r.busy = false) (h : idx.toNat ≤ 7) (v : Word) :
    r.hostWritten idx v = r.writeData idx v := by
  have h8 : idx ≠ 8#4 := by rintro rfl; simp at h
  have hle : idx.toNat ≤ 8 := by omega
  simp [Regs.hostWritten, hb, hle, h8]

theorem hostWritten_reserved_command {r : Regs} {c : Word} {w : ReservedCommand} (hb : r.busy = false)
    (hd : decode c = .reserved w) : r.hostWritten 8#4 c = r.flagCmdError := by
  simp [Regs.hostWritten, hb, hd]

theorem hostWritten_readonly {idx : SlotIdx} (h : 8 < idx.toNat) (r : Regs) (v : Word) :
    r.hostWritten idx v = r := by
  simp [Regs.hostWritten, Nat.not_le.mpr h]

/-! ### What acceptance and the finish step leave alone (R91, R95) -/

@[simp] theorem acceptEffect_key (i : Instr) (r : Regs) : (acceptEffect i r).key = r.key := by cases i <;> rfl
@[simp] theorem acceptEffect_blk (i : Instr) (r : Regs) : (acceptEffect i r).blk = r.blk := by cases i <;> rfl
@[simp] theorem acceptEffect_rounds (i : Instr) (r : Regs) : (acceptEffect i r).rounds = r.rounds := by
  cases i <;> rfl
@[simp] theorem acceptEffect_ident (i : Instr) (r : Regs) : (acceptEffect i r).ident = r.ident := by cases i <;> rfl
@[simp] theorem acceptEffect_result (i : Instr) (r : Regs) : (acceptEffect i r).result = r.result := by
  cases i <;> rfl
@[simp] theorem acceptEffect_errBusy (i : Instr) (r : Regs) : (acceptEffect i r).errBusy = r.errBusy := by
  cases i <;> rfl
@[simp] theorem acceptEffect_errCmd (i : Instr) (r : Regs) : (acceptEffect i r).errCmd = r.errCmd := by
  cases i <;> rfl

/-- The flags and the phase that every accepted operation starts with (R91). -/
theorem acceptEffect_starts {i : Instr} (h : i ≠ .nop) (r : Regs) :
    (acceptEffect i r).busy = true ∧ (acceptEffect i r).done = false ∧ (acceptEffect i r).chkOk = false ∧
      (acceptEffect i r).phase = .run := by
  cases i
  case nop => contradiction
  all_goals exact ⟨rfl, rfl, rfl, rfl⟩

theorem Regs.deliver_result_of_ne {o : Operation} (h : o ≠ .fromToken) (r : Regs) :
    (r.deliver o).result = r.result := by
  cases o with
  | fromToken => contradiction
  | _ => rfl

theorem Regs.deliver_chkOk_of_ne {o : Operation} (h : o ≠ .fromToken) (r : Regs) :
    (r.deliver o).chkOk = r.chkOk := by
  cases o with
  | fromToken => contradiction
  | _ => rfl

theorem Operation.eq_fromToken_iff {op : BitVec 3} {o : Operation} (h : Operation.ofOp op = some o) :
    o = .fromToken ↔ op = 4#3 := by
  rcases Operation.ofOp_some h with ⟨rfl, rfl⟩ | ⟨rfl, rfl⟩ | ⟨rfl, rfl⟩ | ⟨rfl, rfl⟩ <;> decide

/-! ### What the next transition is called when it is a host write -/

theorem State.engineFlags_of_write {s : State} {idx : SlotIdx} {v : Word} {es : List Event}
    (hs : s.script = .host (.write idx v) :: es) : s.iteratesNext = false ∧ s.finishNext = false := by
  simp [State.iteratesNext, State.finishNext, State.engineNext, hs]

theorem State.acceptsNext_of_write {s : State} {idx : SlotIdx} {v : Word} {es : List Event}
    (hs : s.script = .host (.write idx v) :: es) :
    s.acceptsNext =
      (!s.regs.busy && decide (idx = 8#4) && (decode v).instr?.isSome && decide (decode v ≠ .instr .nop)) := by
  simp only [State.acceptsNext, hs]

theorem State.busyMisuse_of_write {s : State} {idx : SlotIdx} {v : Word} {es : List Event}
    (hs : s.script = .host (.write idx v) :: es) :
    s.busyMisuse = (decide (idx.toNat ≤ 8) && s.regs.busy) := by
  simp only [State.busyMisuse, hs, Event.writesSlot0to8]

theorem State.cmdMisuse_of_write {s : State} {idx : SlotIdx} {v : Word} {es : List Event}
    (hs : s.script = .host (.write idx v) :: es) :
    s.cmdMisuse = (!s.regs.busy && decide (idx = 8#4) && (decode v).instr?.isNone) := by
  simp only [State.cmdMisuse, hs]

/-- A write that is not dropped finds the block idle. -/
theorem State.not_busy_of_writesIdle {s : State} {idx : SlotIdx} (h : s.writesIdle idx = true) :
    s.regs.busy = false := by
  unfold State.writesIdle at h
  split at h <;> simp_all

/-! ### The causes of a step

Outside reset a step does one of seven things to the registers. `StepCause.Explains` ties each of them to the
predicates of Safety.lean, so that a statement about what may change a register is one case split over the causes. -/

/-- What a step that is no reset cycle did. -/
inductive StepCause where
  /-- nothing happened to the registers: a read, a poll, an ignored write, NOP, or the engine's turn while idle -/
  | quiet
  /-- a data slot was written while idle (R53) -/
  | dataWrite (idx : SlotIdx) (v : Word)
  /-- a command was accepted (R91) -/
  | accept (i : Instr)
  /-- a write was dropped while busy (R92) -/
  | busyMisuse
  /-- a reserved command was written while idle (R90) -/
  | cmdMisuse
  /-- the engine took an iteration step (R117, R118) -/
  | iterate (o : Operation)
  /-- the engine took the finish step (R95) -/
  | finish (o : Operation)
deriving DecidableEq

/-- A poll changes no register (R78, R52). -/
theorem poll_regs {s t : State} (h : poll s = .next t) : t.regs = s.regs := by
  cases hb : s.regs.busy
  · rw [poll_idle hb] at h
    injection h with h
    rw [← h, State.record_regs]
  · rw [poll_busy hb] at h
    injection h with h
    rw [← h, State.withScript_regs, State.record_regs]

namespace StepCause

/-- The registers after a step with this cause. -/
def effect : StepCause → Regs → Regs
  | quiet, r => r
  | dataWrite idx v, r => r.writeData idx v
  | accept i, r => acceptEffect i r
  | busyMisuse, r => r.flagBusyError
  | cmdMisuse, r => r.flagCmdError
  | iterate o, r => r.iterate o
  | finish o, r => r.finish o

@[simp] theorem effect_quiet (r : Regs) : effect quiet r = r := rfl
@[simp] theorem effect_dataWrite (r : Regs) (idx : SlotIdx) (v : Word) :
    effect (dataWrite idx v) r = r.writeData idx v := rfl
@[simp] theorem effect_accept (r : Regs) (i : Instr) : effect (accept i) r = acceptEffect i r := rfl
@[simp] theorem effect_busyMisuse (r : Regs) : effect busyMisuse r = r.flagBusyError := rfl
@[simp] theorem effect_cmdMisuse (r : Regs) : effect cmdMisuse r = r.flagCmdError := rfl
@[simp] theorem effect_iterate (r : Regs) (o : Operation) : effect (iterate o) r = r.iterate o := rfl
@[simp] theorem effect_finish (r : Regs) (o : Operation) : effect (finish o) r = r.finish o := rfl

/-- An acceptance. -/
@[simp] def isAccept : StepCause → Bool
  | accept _ => true
  | _ => false

/-- An iteration step. -/
@[simp] def isIterate : StepCause → Bool
  | iterate _ => true
  | _ => false

/-- A finish step. -/
@[simp] def isFinish : StepCause → Bool
  | finish _ => true
  | _ => false

/-- What must hold of the state beside the flags for the cause's parameters to be the right ones. -/
@[simp] def Fits : StepCause → State → Prop
  | dataWrite idx _, s => s.writesIdle idx = true
  | accept i, _ => i ≠ .nop
  | iterate o, s => Operation.ofOp s.regs.op = some o
  | finish o, s => Operation.ofOp s.regs.op = some o
  | _, _ => True

/-- The cause is the one that the predicates of Safety.lean name for the next transition of `s`. -/
structure Explains (c : StepCause) (s : State) : Prop where
  accepts : s.acceptsNext = c.isAccept
  iterates : s.iteratesNext = c.isIterate
  finishes : s.finishNext = c.isFinish
  busyError : s.busyMisuse = decide (c = busyMisuse)
  cmdError : s.cmdMisuse = decide (c = cmdMisuse)
  fits : c.Fits s

/-- The engine's turn presents no host write. -/
theorem hostFlags_of_engineNext {s : State} (h : s.engineNext = true) :
    s.acceptsNext = false ∧ s.busyMisuse = false ∧ s.cmdMisuse = false := by
  unfold State.engineNext at h
  split at h
  · simp_all [State.acceptsNext, State.busyMisuse, State.cmdMisuse]
  · simp_all [State.acceptsNext, State.busyMisuse, State.cmdMisuse, Event.writesSlot0to8]
  · contradiction

/-- The engine's turn while idle. -/
theorem explains_engine_idle {s : State} (he : s.engineNext = true) (hp : s.regs.phase = .idle) :
    quiet.Explains s := by
  obtain ⟨ha, hb, hc⟩ := hostFlags_of_engineNext he
  exact ⟨ha, by simp [State.iteratesNext, hp], by simp [State.finishNext, hp], hb, hc, trivial⟩

/-- The engine's turn while it runs an operation. -/
theorem explains_engine_run {s : State} {o : Operation} (he : s.engineNext = true) (hp : s.regs.phase = .run)
    (ho : Operation.ofOp s.regs.op = some o) :
    ∃ c : StepCause, c.Explains s ∧ s.regs.advance o = c.effect s.regs := by
  obtain ⟨ha, hb, hc⟩ := hostFlags_of_engineNext he
  by_cases hi : s.regs.iter = 0#32
  · exact ⟨finish o, ⟨ha, by simp [State.iteratesNext, hi], by simp [State.finishNext, he, hp, hi], hb, hc, ho⟩,
      Regs.advance_zero o hi⟩
  · exact ⟨iterate o, ⟨ha, by simp [State.iteratesNext, he, hp, hi], by simp [State.finishNext, hi], hb, hc, ho⟩,
      Regs.advance_nonzero o hi⟩

/-- A read or a poll. -/
theorem explains_read_or_wait {s : State} {es : List Event}
    (hs : (∃ idx, s.script = .host (.read idx) :: es) ∨ s.script = .wait :: es) : quiet.Explains s := by
  rcases hs with ⟨idx, hs⟩ | hs <;>
    constructor <;> simp [State.acceptsNext, State.iteratesNext, State.finishNext, State.engineNext,
      State.busyMisuse, State.cmdMisuse, Event.writesSlot0to8, hs]

/-- A write of a command word while idle: acceptance, nothing for NOP, or the second error condition of R151. -/
theorem explains_command_write {s : State} {c : Word} {es : List Event}
    (hs : s.script = .host (.write 8#4 c) :: es) (hbusy : s.regs.busy = false) :
    ∃ k : StepCause, k.Explains s ∧ s.regs.hostWritten 8#4 c = k.effect s.regs := by
  obtain ⟨hi, hf⟩ := State.engineFlags_of_write hs
  have ha := State.acceptsNext_of_write hs
  have hb := State.busyMisuse_of_write hs
  have hc := State.cmdMisuse_of_write hs
  cases hd : decode c with
  | reserved w =>
    exact ⟨cmdMisuse, ⟨by simp [ha, hd, Decoded.instr?], hi, hf, by simp [hb, hbusy],
      by simp [hc, hbusy, hd, Decoded.instr?], trivial⟩, hostWritten_reserved_command hbusy hd⟩
  | instr i =>
    by_cases hn : i = .nop
    · subst hn
      exact ⟨quiet, ⟨by simp [ha, hd], hi, hf, by simp [hb, hbusy], by simp [hc, hd, Decoded.instr?], trivial⟩,
        hostWritten_command hbusy hd⟩
    · exact ⟨accept i, ⟨by simp [ha, hbusy, hd, hn, Decoded.instr?], hi, hf, by simp [hb, hbusy],
        by simp [hc, hd, Decoded.instr?], hn⟩, hostWritten_command hbusy hd⟩

/-- A host write: ignored above slot 8, dropped while busy, a command at slot 8, else data (R53, R90, R92). -/
theorem explains_write {s : State} {idx : SlotIdx} {v : Word} {es : List Event}
    (hs : s.script = .host (.write idx v) :: es) :
    ∃ c : StepCause, c.Explains s ∧ s.regs.hostWritten idx v = c.effect s.regs := by
  obtain ⟨hi, hf⟩ := State.engineFlags_of_write hs
  have ha := State.acceptsNext_of_write hs
  have hb := State.busyMisuse_of_write hs
  have hc := State.cmdMisuse_of_write hs
  by_cases h8 : 8 < idx.toNat
  · have hne : idx ≠ 8#4 := by rintro rfl; simp at h8
    exact ⟨quiet, ⟨by simp [ha, hne], hi, hf, by simp [hb, h8], by simp [hc, hne], trivial⟩,
      hostWritten_readonly h8 _ v⟩
  cases hbusy : s.regs.busy with
  | true =>
    exact ⟨busyMisuse, ⟨by simp [ha, hbusy], hi, hf, by simp [hb, hbusy]; omega, by simp [hc, hbusy], trivial⟩,
      by simp [hostWritten_busy hbusy]; omega⟩
  | false =>
    by_cases hcmd : idx = 8#4
    · subst hcmd
      exact explains_command_write hs hbusy
    · have hne : idx.toNat ≠ 8 := fun h => hcmd (BitVec.eq_of_toNat_eq h)
      exact ⟨dataWrite idx v, ⟨by simp [ha, hcmd], hi, hf, by simp [hb, hbusy], by simp [hc, hcmd],
        by simp [State.writesIdle, hs, hbusy]⟩, hostWritten_data hbusy (by omega) v⟩

end StepCause

/-- What a step that is no reset cycle can do: one of the seven causes. -/
theorem step_explained {s t : State} (h : step s = .next t) (hr : s.resetNext = false) :
    ∃ c : StepCause, c.Explains s ∧ t.regs = c.effect s.regs := by
  rcases step_cases h with ⟨es, hs, he⟩ | ⟨idx, es, hs, rfl⟩ | ⟨idx, v, es, hs, rfl⟩ | ⟨p, es, hs, rfl⟩ | ⟨es, hs, hp⟩
  · have hn : s.engineNext = true := by rcases hs with ⟨hs, _⟩ | hs <;> simp [State.engineNext, hs]
    rcases engineStep_cases he with ⟨hp, rfl⟩ | ⟨o, hp, ho, rfl⟩
    · exact ⟨.quiet, StepCause.explains_engine_idle hn hp, rfl⟩
    · exact StepCause.explains_engine_run hn hp ho
  · exact ⟨.quiet, StepCause.explains_read_or_wait (.inl ⟨idx, hs⟩), rfl⟩
  · exact StepCause.explains_write hs
  · simp [State.resetNext, hs, Event.notReset] at hr
  · exact ⟨.quiet, StepCause.explains_read_or_wait (.inr hs), by simpa using poll_regs hp⟩

/-- A reset cycle gives the reset values. -/
theorem step_reset_regs {s t : State} (h : step s = .next t) (hr : s.resetNext = true) : t.regs = Regs.reset := by
  rcases step_cases h with ⟨es, hs | hs, _⟩ | ⟨idx, es, hs, _⟩ | ⟨idx, v, es, hs, _⟩ | ⟨p, es, hs, rfl⟩ | ⟨es, hs, _⟩
  case inr.inr.inr.inl => exact resetCycle_regs _ p
  all_goals simp [State.resetNext, Event.notReset, hs] at hr

end Sys2Proof.Machine
end

section
/-! The frame of each register over the causes of a step (R22 to R31, R151). -/

namespace Sys2Proof.Machine.StepCause

/-! ### The STATUS flags (R28, R151) -/

theorem effect_busy {c : StepCause} {s : State} (hc : c.Explains s) :
    (c.effect s.regs).busy = (if s.acceptsNext then true else if s.finishNext then false else s.regs.busy) := by
  rw [hc.accepts, hc.finishes]
  cases c with
  | accept i => simp [acceptEffect_starts hc.fits]
  | _ => simp

theorem effect_done {c : StepCause} {s : State} (hc : c.Explains s) :
    (c.effect s.regs).done = (if s.acceptsNext then false else if s.finishNext then true else s.regs.done) := by
  rw [hc.accepts, hc.finishes]
  cases c with
  | accept i => simp [acceptEffect_starts hc.fits]
  | _ => simp

theorem effect_chkOk {c : StepCause} {s : State} (hc : c.Explains s) :
    (c.effect s.regs).chkOk =
      (if s.acceptsNext then false
       else if s.finishNext && decide (s.regs.op = 4#3) then decide (chk Config.params s.regs.v0 = s.regs.v1)
       else s.regs.chkOk) := by
  rw [hc.accepts, hc.finishes]
  cases c with
  | accept i => simp [acceptEffect_starts hc.fits]
  | finish o =>
    have hop := Operation.eq_fromToken_iff hc.fits
    by_cases ho : o = .fromToken
    · simp [ho, hop.mp ho, checksumOk]
    · simp [Regs.deliver_chkOk_of_ne ho, mt hop.mpr ho]
  | _ => simp

theorem effect_errBusy {c : StepCause} {s : State} (hc : c.Explains s) :
    (c.effect s.regs).errBusy = (s.regs.errBusy || s.busyMisuse) := by
  rw [hc.busyError]
  cases c <;> simp

theorem effect_errCmd {c : StepCause} {s : State} (hc : c.Explains s) :
    (c.effect s.regs).errCmd = (s.regs.errCmd || s.cmdMisuse) := by
  rw [hc.cmdError]
  cases c <;> simp

/-! ### The words of the slots (R22 to R26) -/

/-- The slot a data write names is no slot that is not written. -/
theorem dataWrite_toNat_ne {idx j : SlotIdx} {v : Word} {s : State} (hc : (dataWrite idx v).Explains s)
    (hw : s.writesIdle j = false) : idx.toNat ≠ j.toNat := by
  intro h
  rw [← BitVec.eq_of_toNat_eq h, hc.fits] at hw
  contradiction

theorem effect_key {c : StepCause} {s : State} (hc : c.Explains s) (j : Fin 4)
    (hw : s.writesIdle (BitVec.ofNat 4 j.val) = false) : (c.effect s.regs).key[j] = s.regs.key[j] := by
  cases c with
  | dataWrite idx v =>
    have hne := dataWrite_toNat_ne hc hw
    exact Regs.writeData_key_of_ne j.isLt (by simpa [Nat.mod_eq_of_lt (show j.val < 16 by omega)] using hne)
  | _ => simp

theorem effect_rounds {c : StepCause} {s : State} (hc : c.Explains s) (hw : s.writesIdle 6#4 = false) :
    (c.effect s.regs).rounds = s.regs.rounds := by
  cases c with
  | dataWrite idx v => exact Regs.writeData_rounds_of_ne (dataWrite_toNat_ne hc hw)
  | _ => simp

theorem effect_ident {c : StepCause} {s : State} (hc : c.Explains s) (hw : s.writesIdle 7#4 = false) :
    (c.effect s.regs).ident = s.regs.ident := by
  cases c with
  | dataWrite idx v => exact Regs.writeData_ident_of_ne (dataWrite_toNat_ne hc hw)
  | _ => simp

theorem effect_blk {c : StepCause} {s : State} (hc : c.Explains s) (j : Fin 2)
    (hw : s.writesIdle (BitVec.ofNat 4 (4 + j.val)) = false)
    (hf : ¬(s.finishNext = true ∧ s.regs.op ≠ 4#3)) : (c.effect s.regs).blk[j] = s.regs.blk[j] := by
  cases c with
  | dataWrite idx v =>
    have hne := dataWrite_toNat_ne hc hw
    exact Regs.writeData_blk_of_ne j.isLt (by simpa [Nat.mod_eq_of_lt (show 4 + j.val < 16 by omega)] using hne)
  | finish o =>
    have hop : s.regs.op = 4#3 := by simpa [hc.finishes] using hf
    rw [(Operation.eq_fromToken_iff hc.fits).mpr hop]
    rfl
  | _ => simp

theorem effect_result {c : StepCause} {s : State} (hc : c.Explains s)
    (hf : ¬(s.finishNext = true ∧ s.regs.op = 4#3)) : (c.effect s.regs).result = s.regs.result := by
  cases c with
  | finish o =>
    have hop : s.regs.op ≠ 4#3 := by simpa [hc.finishes] using hf
    exact Regs.deliver_result_of_ne (mt (Operation.eq_fromToken_iff hc.fits).mp hop) s.regs
  | _ => simp

/-! ### `OP`, `PHASE` and the working registers (R27, R30, R31) -/

theorem effect_op {c : StepCause} {s : State} (hc : c.Explains s) (ha : s.acceptsNext = false) :
    (c.effect s.regs).op = s.regs.op := by
  rw [hc.accepts] at ha
  cases c with
  | accept i => contradiction
  | _ => simp

theorem effect_working {c : StepCause} {s : State} (hc : c.Explains s) (ha : s.acceptsNext = false)
    (hi : s.iteratesNext = false) :
    (c.effect s.regs).v0 = s.regs.v0 ∧ (c.effect s.regs).v1 = s.regs.v1 ∧ (c.effect s.regs).sum = s.regs.sum ∧
      (c.effect s.regs).iter = s.regs.iter := by
  rw [hc.accepts] at ha
  rw [hc.iterates] at hi
  cases c with
  | accept i => contradiction
  | iterate o => contradiction
  | _ => simp

theorem effect_iter_of_iterate {c : StepCause} {s : State} (hc : c.Explains s) (hi : s.iteratesNext = true) :
    (c.effect s.regs).iter = s.regs.iter - 1#32 := by
  rw [hc.iterates] at hi
  cases c with
  | iterate o => rfl
  | _ => contradiction

theorem effect_phase {c : StepCause} {s : State} (hc : c.Explains s) (ha : s.acceptsNext = false)
    (hf : s.finishNext = false) : (c.effect s.regs).phase = s.regs.phase := by
  rw [hc.accepts] at ha
  rw [hc.finishes] at hf
  cases c with
  | accept i => contradiction
  | finish o => contradiction
  | _ => simp

end Sys2Proof.Machine.StepCause

namespace Sys2Proof.Machine

/-! ### The obligations on the frame of a step -/

/-- Settles O9: by the causes of a step, register by register. -/
theorem registersChangeOnlyForNamedCauses : Obligations.RegistersChangeOnlyForNamedCauses := by
  intro s t h hr
  obtain ⟨c, hc, ht⟩ := step_explained h hr
  rw [ht]
  exact ⟨StepCause.effect_key hc, StepCause.effect_rounds hc, StepCause.effect_ident hc, StepCause.effect_blk hc,
    StepCause.effect_result hc, StepCause.effect_op hc, StepCause.effect_working hc,
    StepCause.effect_iter_of_iterate hc,
    fun ha hf => ⟨StepCause.effect_phase hc ha hf, by simp [StepCause.effect_busy hc, ha, hf],
      by simp [StepCause.effect_done hc, ha, hf]⟩,
    fun ha hf => by simp [StepCause.effect_chkOk hc, ha, hf],
    fun hb => by simp [StepCause.effect_errBusy hc, hb],
    fun hb => by simp [StepCause.effect_errCmd hc, hb]⟩

/-- Settles O16: the bits of the word, the flags over the causes of a step, and slot 9. -/
theorem statusFlagsFollowAcceptanceAndFinish : Obligations.StatusFlagsFollowAcceptanceAndFinish := by
  refine ⟨fun r => ?_, fun s t h hr => ?_, fun s t h hr => ?_, fun s v rest hs => ?_, fun s rest hs => ?_⟩
  · exact ⟨statusWord_bit_zero r, statusWord_bit_one r, statusWord_bit_two r, statusWord_bit_three r,
      statusWord_bit_four r, fun i => statusWord_reserved_bit r⟩
  · obtain ⟨c, hc, ht⟩ := step_explained h hr
    rw [ht]
    exact ⟨StepCause.effect_busy hc, StepCause.effect_done hc, StepCause.effect_chkOk hc,
      StepCause.effect_errBusy hc, StepCause.effect_errCmd hc⟩
  · rw [step_reset_regs h hr]
    decide
  · rw [step_write hs, hostWritten_readonly (by decide), State.withScript_withRegs_self]
  · exact ⟨_, step_read hs, rfl⟩

/-- Settles O12: the write is `writeData`, whose slot reads back and whose other slots read as before. -/
theorem slotWritesDoNotAlias : Obligations.SlotWritesDoNotAlias := by
  intro s idx v rest hs hb h7
  refine ⟨_, step_write hs, ?_⟩
  rw [hostWritten_data hb h7, State.withRegs_regs]
  exact ⟨hostRead_writeData_same s.regs v h7, fun j => hostRead_writeData_of_ne s.regs v, by simp⟩

end Sys2Proof.Machine
end

section
/-! The reset state and the invariant (R36, R37, R29). -/

namespace Sys2Proof.Machine

/-! ### The invariant at reset and over each cause of a step -/

theorem Regs.reset_inv : Regs.reset.Inv := by
  constructor <;> decide

/-- R115, R116 speak of a running operation only. -/
theorem Regs.sumInv_of_idle {r : Regs} (h : r.phase = .idle) : r.SumInv := by
  constructor <;> simp [h]

/-- The invariant looks at `OP`, `BUSY`, `DONE`, `CHK_OK`, `PHASE` and, while running, at `ITER`, which may go down,
and `ROUNDS`. -/
theorem Regs.Inv.congr {r q : Regs} (h : r.Inv) (hop : q.op = r.op) (hbusy : q.busy = r.busy)
    (hdone : q.done = r.done) (hchk : q.chkOk = r.chkOk) (hphase : q.phase = r.phase)
    (hrun : r.phase = .run → q.iter.toNat ≤ r.iter.toNat ∧ q.rounds = r.rounds) : q.Inv where
  busy_iff_run := by rw [hbusy, hphase]; exact h.busy_iff_run
  not_busy_and_done := by rw [hbusy, hdone]; exact h.not_busy_and_done
  op_le := by rw [hop]; exact h.op_le
  op_zero := by rw [hop, hbusy, hdone]; exact h.op_zero
  chkOk_done := by rw [hchk, hdone, hop]; exact h.chkOk_done
  codec_iter hp ho := by
    rw [hphase] at hp
    rw [hop] at ho
    exact (hrun hp).1.trans (h.codec_iter hp ho)
  cipher_iter hp ho := by
    rw [hphase] at hp
    rw [hop] at ho
    rw [(hrun hp).2]
    exact (hrun hp).1.trans (h.cipher_iter hp ho)
  quiet_op := by rw [hbusy, hdone, hop]; exact h.quiet_op

/-- Every accepted operation starts within its bounds (R91). -/
theorem acceptEffect_inv {i : Instr} (hi : i ≠ .nop) (r : Regs) : (acceptEffect i r).Inv := by
  cases i
  case nop => contradiction
  all_goals constructor <;> simp [acceptEffect, Config.params]

/-- The finish step leaves `PHASE = IDLE`, `DONE = 1` and the operation it ends, and sets `CHK_OK` only for
FROM_TOKEN. -/
theorem Regs.Inv.finish {r : Regs} {o : Operation} (h : r.Inv) (hp : r.phase = .run)
    (ho : Operation.ofOp r.op = some o) : (r.finish o).Inv := by
  have hbusy := h.busy_iff_run.mpr hp
  have hop : r.op ≠ 0#3 := fun h0 => by simp [(h.op_zero h0).1] at hbusy
  have hchk : (r.finish o).chkOk = true → r.op = 4#3 := fun hk => by
    by_cases hf : o = .fromToken
    · exact (Operation.eq_fromToken_iff ho).mp hf
    · rw [Regs.finish_chkOk, Regs.deliver_chkOk_of_ne hf] at hk
      exact (h.chkOk_done hk).2
  constructor
  case op_le => simpa using h.op_le
  case chkOk_done => simpa using hchk
  all_goals simp [hop]

/-- No cause of a step breaks the invariant. -/
theorem StepCause.effect_inv {c : StepCause} {s : State} (hc : c.Explains s) (h : s.regs.Inv) :
    (c.effect s.regs).Inv := by
  cases c with
  | quiet => exact h
  | busyMisuse => exact h.congr rfl rfl rfl rfl rfl fun _ => ⟨le_rfl, rfl⟩
  | cmdMisuse => exact h.congr rfl rfl rfl rfl rfl fun _ => ⟨le_rfl, rfl⟩
  | dataWrite idx v =>
    refine h.congr (by simp) (by simp) (by simp) (by simp) (by simp) fun hp => ?_
    have := State.not_busy_of_writesIdle hc.fits
    simp [h.busy_iff_run.mpr hp] at this
  | accept i => exact acceptEffect_inv hc.fits s.regs
  | iterate o =>
    have hi : s.regs.iter ≠ 0#32 := by
      have := hc.iterates
      simp_all [State.iteratesNext]
    exact h.congr rfl rfl rfl rfl rfl fun _ => ⟨by simp; bv_omega, rfl⟩
  | finish o =>
    have hp : s.regs.phase = .run := by
      have := hc.finishes
      simp_all [State.finishNext]
    exact h.finish hp hc.fits

/-! ### The obligations on reset and the invariant -/

/-- Settles O1: every register of the table of R21, by definition of the reset state. -/
theorem resetValuesOfEveryRegister : Obligations.ResetValuesOfEveryRegister := by
  unfold Obligations.ResetValuesOfEveryRegister
  decide

/-- Settles O2. -/
theorem resetStateMeetsInvariants : Obligations.ResetStateMeetsInvariants :=
  ⟨Regs.reset_inv, Regs.sumInv_of_idle rfl⟩

/-- Settles O3: a reset cycle gives the reset values; any other step has a cause, and each cause keeps the invariant
and the error flags. -/
theorem everyStepKeepsInvariant : Obligations.EveryStepKeepsInvariant := by
  intro s t hinv h
  cases hr : s.resetNext with
  | true =>
    rw [step_reset_regs h hr]
    exact ⟨Regs.reset_inv, by simp⟩
  | false =>
    obtain ⟨c, hc, ht⟩ := step_explained h hr
    rw [ht, StepCause.effect_errBusy hc, StepCause.effect_errCmd hc]
    exact ⟨StepCause.effect_inv hc hinv, fun _ => ⟨fun hb => by simp [hb], fun hb => by simp [hb]⟩⟩

end Sys2Proof.Machine
end

section
/-! PROOFS for the family 20_memory.md: the next listed transition (R64), host reads and writes slot by slot (R50 to
R53, R92), what stays readable while an operation runs (R66), and the byte views (R56 to R58). -/

namespace Sys2Proof.Machine

/-! ### The order of transitions and the host port -/

/-- Settles O8: `step_empty` and `step_event`, whose `runEvent` is the listed transition. -/
theorem stepTakesNextListedTransition : Obligations.StepTakesNextListedTransition :=
  fun _ _ => ⟨step_empty, step_event, fun _ => step_event, fun _ => step_event, step_event⟩

/-- Settles O10: a read records its slot's value, and each slot reads its row of R50. -/
theorem hostReadReturnsItsSlot : Obligations.HostReadReturnsItsSlot :=
  ⟨fun _ _ _ hs => ⟨_, step_read hs, rfl, rfl, rfl⟩,
    fun r => ⟨hostRead_key0 r, hostRead_key1 r, hostRead_key2 r, hostRead_key3 r, hostRead_blk0 r, hostRead_blk1 r,
      hostRead_rounds r, hostRead_ident r, hostRead_cmd r, hostRead_status r, hostRead_result r,
      hostRead_reserved r⟩⟩

theorem Regs.writeData_key_slot (r : Regs) {idx : SlotIdx} (j : Fin 4) (h : idx.toNat = j.val) (v : Word) :
    r.writeData idx v = { r with key := r.key.set j.val v } := by
  unfold Regs.writeData
  rw [h]
  fin_cases j <;> rfl

theorem Regs.writeData_blk_slot (r : Regs) {idx : SlotIdx} (j : Fin 2) (h : idx.toNat = 4 + j.val) (v : Word) :
    r.writeData idx v = { r with blk := r.blk.set j.val v } := by
  unfold Regs.writeData
  rw [h]
  fin_cases j <;> rfl

/-- A host write to a data slot while idle. -/
theorem step_write_data {s : State} {idx : SlotIdx} {v : Word} {es : List Event}
    (hs : s.script = .host (.write idx v) :: es) (hb : s.regs.busy = false) (h : idx.toNat ≤ 7) :
    step s = .next ((s.withScript es).withRegs (s.regs.writeData idx v)) := by
  rw [step_write hs, hostWritten_data hb h]

/-- A command written to slot 8 while idle is that command's `exec` (R90). -/
theorem step_write_command {s : State} {c : Word} {i : Instr} {es : List Event}
    (hs : s.script = .host (.write 8#4 c) :: es) (hb : s.regs.busy = false) (hd : decode c = .instr i) :
    step s = exec i (s.withScript es) := by
  rw [step_write hs, hostWritten_command hb hd, exec_idle i (s := s.withScript es) hb, State.withScript_regs]

/-- Settles O11: the step is `hostWritten`, row by row of R53 while idle, and R92 while busy. -/
theorem hostWriteEffectBySlot : Obligations.HostWriteEffectBySlot := by
  intro s idx v rest hs
  refine ⟨fun hb => ⟨fun j hj => ?key, fun j hj => ?blk, ?rounds, ?ident, ?command, ?reserved⟩,
    fun hb h8 => ?busy, fun h9 => ?readonly⟩
  case key => rw [step_write_data hs hb (by omega), Regs.writeData_key_slot _ j hj]
  case blk => rw [step_write_data hs hb (by omega), Regs.writeData_blk_slot _ j hj]
  case rounds =>
    rintro rfl
    exact step_write_data hs hb (by decide)
  case ident =>
    rintro rfl
    exact step_write_data hs hb (by decide)
  case command =>
    rintro rfl i hd
    exact step_write_command hs hb hd
  case reserved =>
    rintro rfl w hd
    rw [step_write hs, hostWritten_reserved_command hb hd, Regs.flagCmdError]
  case busy => rw [step_write hs, hostWritten_busy hb, if_pos h8, Regs.flagBusyError]
  case readonly => rw [step_write hs, hostWritten_readonly h9, State.withScript_withRegs_self]

/-! ### What stays readable while an operation runs -/

/-- Every slot but STATUS reads one of six registers. -/
theorem hostRead_congr {r q : Regs} (hkey : q.key = r.key) (hblk : q.blk = r.blk) (hrounds : q.rounds = r.rounds)
    (hident : q.ident = r.ident) (hop : q.op = r.op) (hresult : q.result = r.result) {idx : SlotIdx}
    (h : idx ≠ 9#4) : hostRead q idx = hostRead r idx := by
  have h9 : idx.toNat ≠ 9 := fun e => h (BitVec.eq_of_toNat_eq e)
  simp only [hostRead, hkey, hblk, hrounds, hident, hop, hresult]
  split
  case h_10 => contradiction
  all_goals rfl

theorem State.writesIdle_of_busy {s : State} (h : s.regs.busy = true) (idx : SlotIdx) :
    s.writesIdle idx = false :=
  Bool.eq_false_iff.mpr fun hw => by simp [State.not_busy_of_writesIdle hw] at h

theorem State.acceptsNext_of_busy {s : State} (h : s.regs.busy = true) : s.acceptsNext = false := by
  unfold State.acceptsNext
  split <;> simp [h]

namespace StepCause

theorem effect_key_of_busy {c : StepCause} {s : State} (hc : c.Explains s) (hb : s.regs.busy = true) :
    (c.effect s.regs).key = s.regs.key :=
  Vector.ext fun j hj => effect_key hc ⟨j, hj⟩ (State.writesIdle_of_busy hb _)

theorem effect_blk_of_busy {c : StepCause} {s : State} (hc : c.Explains s) (hb : s.regs.busy = true)
    (hf : s.finishNext = false) : (c.effect s.regs).blk = s.regs.blk :=
  Vector.ext fun j hj => effect_blk hc ⟨j, hj⟩ (State.writesIdle_of_busy hb _) (by simp [hf])

end StepCause

/-- Settles O17: while busy no write lands and nothing is accepted, and a step after which `BUSY` is still 1 is no
finish step; so each register behind a slot but STATUS lacks every cause to change. -/
theorem nothingReadableChangesWhileBusy : Obligations.NothingReadableChangesWhileBusy := by
  intro s t h hb hr
  obtain ⟨c, hc, ht⟩ := step_explained h hr
  rw [ht]
  have ha := State.acceptsNext_of_busy hb
  have hkey := StepCause.effect_key_of_busy hc hb
  have hrounds := StepCause.effect_rounds hc (State.writesIdle_of_busy hb _)
  have hident := StepCause.effect_ident hc (State.writesIdle_of_busy hb _)
  refine ⟨hkey, hrounds, hident, fun hstill idx hidx => ?_⟩
  have hf : s.finishNext = false := by
    rw [StepCause.effect_busy hc] at hstill
    simpa [ha, hb] using hstill
  exact hostRead_congr hkey (StepCause.effect_blk_of_busy hc hb hf) hrounds hident (StepCause.effect_op hc ha)
    (StepCause.effect_result hc (by simp [hf])) hidx

/-! ### Words and their four bytes (R56) -/

theorem toNat_append_eq_add {m n : Nat} (x : BitVec m) (y : BitVec n) :
    (x ++ y).toNat = 2 ^ n * x.toNat + y.toNat := by
  rw [BitVec.toNat_append, ← Nat.shiftLeft_add_eq_or_of_lt y.isLt, Nat.shiftLeft_eq, Nat.mul_comm]

theorem unpack32_toNat (b : Vector Byte 4) :
    (unpack32 b).toNat = b[0].toNat + 256 * b[1].toNat + 65536 * b[2].toNat + 16777216 * b[3].toNat := by
  simp only [unpack32, toNat_append_eq_add]
  omega

/-- The bytes `Pack32` gives are the base-256 digits of the word. -/
theorem pack32_getElem_toNat (w : Word) (i : Nat) (h : i < 4) :
    (pack32 w)[i].toNat = w.toNat / 256 ^ i % 256 := by
  interval_cases i <;> simp [pack32, BitVec.extractLsb'_toNat, Nat.shiftRight_eq_div_pow]

theorem unpack32_pack32 (w : Word) : unpack32 (pack32 w) = w := by
  apply BitVec.eq_of_toNat_eq
  simp only [unpack32_toNat, pack32_getElem_toNat]
  omega

theorem pack32_unpack32 (b : Vector Byte 4) : pack32 (unpack32 b) = b := by
  ext i hi : 1
  apply BitVec.eq_of_toNat_eq
  rw [pack32_getElem_toNat, unpack32_toNat]
  interval_cases i <;> omega

/-- Settles O46. -/
theorem packAndUnpackAreInverse : Obligations.PackAndUnpackAreInverse :=
  ⟨unpack32_toNat, pack32_unpack32, unpack32_pack32⟩

/-! ### Words and bytes of a key or block (R57, R58) -/

/-- Bytes `4j` to `4j + 3` of a buffer. -/
def bytesOfWord {n : Nat} (b : Vector Byte (4 * n)) (j : Fin n) : Vector Byte 4 :=
  Vector.ofFn fun m : Fin 4 => b[4 * j.val + m.val]

/-- The view of R57 and R58 for `n` words: of a key `n` is 4, of a block 2. -/
def wordsOfBytes {n : Nat} (b : Vector Byte (4 * n)) : Vector Word n :=
  Vector.ofFn fun j => unpack32 (bytesOfWord b j)

/-- The bytes of `n` words, word after word. -/
def bytesOfWords {n : Nat} (w : Vector Word n) : Vector Byte (4 * n) :=
  Vector.ofFn fun i : Fin (4 * n) => (pack32 w[i.val / 4])[i.val % 4]

theorem keyOfBytes_eq (k : Vector Byte 16) : keyOfBytes k = wordsOfBytes (n := 4) k := rfl
theorem keyToBytes_eq (k : Key) : keyToBytes k = bytesOfWords k := rfl
theorem blockOfBytes_eq (b : Vector Byte 8) : blockOfBytes b = wordsOfBytes (n := 2) b := rfl
theorem blockToBytes_eq (b : Block) : blockToBytes b = bytesOfWords b := rfl

theorem bytesOfWord_eq {n : Nat} (b : Vector Byte (4 * n)) (j : Fin n) :
    bytesOfWord b j = #v[b[4 * j.val], b[4 * j.val + 1], b[4 * j.val + 2], b[4 * j.val + 3]] := by
  ext m hm : 1
  interval_cases m <;> simp [bytesOfWord]

theorem wordsOfBytes_getElem {n : Nat} (b : Vector Byte (4 * n)) (j : Fin n) :
    (wordsOfBytes b)[j] = unpack32 #v[b[4 * j.val], b[4 * j.val + 1], b[4 * j.val + 2], b[4 * j.val + 3]] := by
  simp [wordsOfBytes, bytesOfWord_eq]

theorem bytesOfWord_bytesOfWords {n : Nat} (w : Vector Word n) (j : Fin n) :
    bytesOfWord (bytesOfWords w) j = pack32 w[j] := by
  ext m hm : 1
  simp [bytesOfWord, bytesOfWords, Nat.mul_add_div, Nat.div_eq_of_lt hm, Nat.mod_eq_of_lt hm]

theorem wordsOfBytes_bytesOfWords {n : Nat} (w : Vector Word n) : wordsOfBytes (bytesOfWords w) = w := by
  ext j hj : 1
  simp [wordsOfBytes, bytesOfWord_bytesOfWords, unpack32_pack32]

theorem bytesOfWords_wordsOfBytes {n : Nat} (b : Vector Byte (4 * n)) : bytesOfWords (wordsOfBytes b) = b := by
  ext i hi : 1
  simp [bytesOfWords, wordsOfBytes, pack32_unpack32, bytesOfWord, Nat.div_add_mod]

/-- Settles O47: key and block are the views of four and of two words. -/
theorem keyAndBlockByteViews : Obligations.KeyAndBlockByteViews :=
  ⟨wordsOfBytes_getElem (n := 4), wordsOfBytes_getElem (n := 2), bytesOfWords_wordsOfBytes (n := 4),
    wordsOfBytes_bytesOfWords, bytesOfWords_wordsOfBytes (n := 2), wordsOfBytes_bytesOfWords⟩

end Sys2Proof.Machine
end

section
/-! PROOFS for the family 30_encoding.md, the decoder: what decodes to a command and what is reserved (R70 to R72,
R75), and what a step does with a command word written to CMD (R90, R92). -/

namespace Sys2Proof

/-! ### The decoder and the encoder (R70 to R72) -/

/-- A command word is its two fields. -/
@[simp] theorem CmdFields.toWord_ofWord (c : Word) : (CmdFields.ofWord c).toWord = c := by
  rw [CmdFields.toWord, CmdFields.ofWord, BitVec.extractLsb'_append_extractLsb'_eq_extractLsb' (by rfl)]
  exact BitVec.extractLsb'_eq_self

/-- A word's fields determine it. -/
theorem CmdFields.eq_toWord {c : Word} {zero : BitVec 29} {opc : BitVec 3}
    (hz : (CmdFields.ofWord c).zero = zero) (ho : (CmdFields.ofWord c).opc = opc) :
    c = CmdFields.toWord ⟨zero, opc⟩ := by
  rw [← hz, ← ho]
  exact (CmdFields.toWord_ofWord c).symm

/-- What `PerInstr` says of each command, for all of them. -/
theorem Laws.RoundTrip.all (i : Instr) : Laws.RoundTrip.Statement i := by
  cases i with
  | nop => exact Laws.RoundTrip.nop
  | encrypt => exact Laws.RoundTrip.encrypt
  | decrypt => exact Laws.RoundTrip.decrypt
  | toToken => exact Laws.RoundTrip.toToken
  | fromToken => exact Laws.RoundTrip.fromToken

@[simp] theorem decode_encode (i : Instr) : decode (encode i) = .instr i := (Laws.RoundTrip.all i).2.1

theorem encode_eq_matchWord (i : Instr) : encode i = i.matchWord := (Laws.RoundTrip.all i).2.2

theorem Instr.maskWord_eq_allOnes (i : Instr) : i.maskWord = BitVec.allOnes 32 := by cases i <;> rfl

/-- What `decode` can answer: a command, on its own encoding only, or one of the two reasons of R75. -/
theorem decode_cases (c : Word) : (∃ i, c = encode i) ∨ ∃ w, decode c = .reserved w := by
  unfold decode
  split
  case isFalse => exact .inr ⟨_, rfl⟩
  case isTrue hz =>
    split
    case h_6 => exact .inr ⟨_, rfl⟩
    case h_1 ho => exact .inl ⟨.nop, CmdFields.eq_toWord hz (BitVec.eq_of_toNat_eq ho)⟩
    case h_2 ho => exact .inl ⟨.encrypt, CmdFields.eq_toWord hz (BitVec.eq_of_toNat_eq ho)⟩
    case h_3 ho => exact .inl ⟨.decrypt, CmdFields.eq_toWord hz (BitVec.eq_of_toNat_eq ho)⟩
    case h_4 ho => exact .inl ⟨.toToken, CmdFields.eq_toWord hz (BitVec.eq_of_toNat_eq ho)⟩
    case h_5 ho => exact .inl ⟨.fromToken, CmdFields.eq_toWord hz (BitVec.eq_of_toNat_eq ho)⟩

theorem decode_eq_instr_iff {c : Word} {i : Instr} : decode c = .instr i ↔ c = encode i := by
  constructor
  · intro h
    rcases decode_cases c with ⟨j, rfl⟩ | ⟨w, hw⟩
    · rw [decode_encode, Decoded.instr.injEq] at h
      rw [h]
    · rw [hw] at h
      contradiction
  · rintro rfl
    exact decode_encode i

theorem decode_reserved_iff {c : Word} : (∃ w, decode c = .reserved w) ↔ ∀ i : Instr, c ≠ encode i := by
  constructor
  · rintro ⟨w, hw⟩ i rfl
    rw [decode_encode] at hw
    contradiction
  · intro h
    exact (decode_cases c).resolve_left fun ⟨i, hi⟩ => h i hi

/-- The encodings are the numbers 0 to 4 (R72). -/
theorem exists_eq_encode_iff {c : Word} : (∃ i, c = encode i) ↔ c.toNat ≤ 4 := by
  constructor
  · rintro ⟨i, rfl⟩
    cases i <;> decide
  · intro h
    obtain ⟨n, hn⟩ : ∃ n, n = c.toNat := ⟨_, rfl⟩
    rw [← hn] at h
    interval_cases n
    · exact ⟨.nop, BitVec.eq_of_toNat_eq hn.symm⟩
    · exact ⟨.encrypt, BitVec.eq_of_toNat_eq hn.symm⟩
    · exact ⟨.decrypt, BitVec.eq_of_toNat_eq hn.symm⟩
    · exact ⟨.toToken, BitVec.eq_of_toNat_eq hn.symm⟩
    · exact ⟨.fromToken, BitVec.eq_of_toNat_eq hn.symm⟩

theorem decode_reserved_iff_lt {c : Word} : (∃ w, decode c = .reserved w) ↔ 4 < c.toNat := by
  rw [decode_reserved_iff, ← not_exists, exists_eq_encode_iff, Nat.not_le]

/-- Settles O19: `decode` inverts `encode`, and a row's mask compares every bit with the encoding. -/
theorem decodeIsExactlyTheOpcodeTable : Obligations.DecodeIsExactlyTheOpcodeTable := by
  refine ⟨fun c i => ⟨?_, decode_eq_instr_iff⟩, fun c => decode_reserved_iff⟩
  rw [decode_eq_instr_iff, encode_eq_matchWord, Instr.maskWord_eq_allOnes, BitVec.and_allOnes]

/-- Settles O20: nine literal words, by evaluation. -/
theorem tableWordsDecodeAsWritten : Obligations.TableWordsDecodeAsWritten := by
  unfold Obligations.TableWordsDecodeAsWritten
  decide

/-! ### Table words (R77) -/

theorem Decoded.instr?_eq_some {d : Decoded} {i : Instr} (h : d.instr? = some i) : d = .instr i := by
  cases d with
  | instr j => exact congrArg Decoded.instr (Option.some.inj h)
  | reserved w => contradiction

theorem decode_tableWord {nbits w : Nat} {i : Instr} (h : decodeTableWord nbits w = some i) :
    decode (BitVec.ofNat 32 (tableWord nbits w)) = .instr i := by
  unfold decodeTableWord at h
  split at h
  · exact Decoded.instr?_eq_some h
  · contradiction

end Sys2Proof

namespace Sys2Proof.Machine

/-! ### A command word written to CMD (R75, R90, R92) -/

/-- Settles O14: the words above 4 are no command's encoding; the write is the misuse of R151 for the state it is
taken in. -/
theorem reservedCommandSetsErrCmdOnly : Obligations.ReservedCommandSetsErrCmdOnly := by
  refine ⟨fun c => decode_reserved_iff_lt, fun s c rest hs hc => ⟨fun hb => ?_, fun hb => ?_⟩⟩
  · obtain ⟨w, hw⟩ := decode_reserved_iff_lt.mpr hc
    rw [step_write hs, hostWritten_reserved_command hb hw, Regs.flagCmdError]
  · rw [step_write hs, hostWritten_busy hb, if_pos (by decide), Regs.flagBusyError]

/-- A command written to slot 8 is that command's `exec`, in every state: both drop it while busy. -/
theorem step_write_command_any {s : State} {c : Word} {i : Instr} {es : List Event}
    (hs : s.script = .host (.write 8#4 c) :: es) (hd : decode c = .instr i) : step s = exec i (s.withScript es) := by
  cases hb : s.regs.busy with
  | false => exact step_write_command hs hb hd
  | true =>
    rw [step_write hs, hostWritten_busy hb, if_pos (by decide), exec_busy i (s := s.withScript es) hb, dropWrite,
      State.withScript_regs]

/-- Settles O21: a table word that decodes is the command word `withFetchWord` presents. -/
theorem stepRunsTheDecodedCommand : Obligations.StepRunsTheDecodedCommand := by
  refine ⟨fun s c i rest => step_write_command_any, fun s nbits w i h => ?_⟩
  rw [State.withFetchWord, step_write_command_any (State.withScript_script _ _) (decode_tableWord h),
    State.withScript_withScript, State.withScript_self]

/-! ### Transactions as tuples and slots as byte offsets (R78, R13, R50) -/

theorem tuple_we (we : BitVec 1) (idx : SlotIdx) (v : Word) : (we ++ idx ++ v).getLsbD 36 = we.getLsbD 0 := by
  rw [BitVec.getLsbD_append, BitVec.getLsbD_append]
  rfl

theorem tuple_idx (we : BitVec 1) (idx : SlotIdx) (v : Word) : (we ++ idx ++ v).extractLsb' 32 4 = idx :=
  (BitVec.extractLsb'_append_eq_of_le le_rfl).trans BitVec.extractLsb'_append_eq_right

theorem tuple_wdata (we : BitVec 1) (idx : SlotIdx) (v : Word) : (we ++ idx ++ v).extractLsb' 0 32 = v :=
  BitVec.extractLsb'_append_eq_right

theorem Transaction.ofTuple_tuple (t : Transaction) (lines : Word) : Transaction.ofTuple (t.tuple lines) = t := by
  cases t with
  | read idx => rw [Transaction.tuple, Transaction.ofTuple, tuple_we, tuple_idx, if_neg (by decide)]
  | write idx v => rw [Transaction.tuple, Transaction.ofTuple, tuple_we, tuple_idx, tuple_wdata, if_pos (by decide)]

theorem slotOfOffset_eq_some_iff {addr n : Nat} {i : SlotIdx} :
    slotOfOffset addr n = some i ↔ n = 4 ∧ addr = 4 * i.toNat := by
  have hi := i.isLt
  unfold slotOfOffset
  split
  case isTrue h =>
    rw [Option.some_inj, ← BitVec.toNat_inj, BitVec.toNat_ofNat]
    omega
  case isFalse h =>
    simp only [reduceCtorEq, false_iff]
    omega

/-- Settles O48: the tuple's three fields read back; the rest is arithmetic on the offset. -/
theorem tuplesAndOffsetsNameTransactions : Obligations.TuplesAndOffsetsNameTransactions :=
  ⟨Transaction.ofTuple_tuple, fun _ _ _ => slotOfOffset_eq_some_iff⟩

end Sys2Proof.Machine
end

section
/-! PROOFS for the family 30_encoding.md, the host scripts: the run of an operation to its finish step (R98), the
statement `wait` (R78), and the pseudo-instructions of R79, put together from the runs of their statements. -/

namespace Sys2Proof.Machine

/-! ### An operation to its end (R95, R98) -/

/-- The registers after the iteration steps that are left and the finish step. -/
def Regs.completed (r : Regs) (o : Operation) : Regs := (r.iterated o r.iter.toNat).finish o

@[simp] theorem Regs.completed_busy (r : Regs) (o : Operation) : (r.completed o).busy = false := rfl
@[simp] theorem Regs.completed_key (r : Regs) (o : Operation) : (r.completed o).key = r.key := Regs.finish_key _ o
@[simp] theorem Regs.completed_rounds (r : Regs) (o : Operation) : (r.completed o).rounds = r.rounds :=
  Regs.finish_rounds _ o
@[simp] theorem Regs.completed_errBusy (r : Regs) (o : Operation) : (r.completed o).errBusy = r.errBusy :=
  Regs.finish_errBusy _ o
@[simp] theorem Regs.completed_errCmd (r : Regs) (o : Operation) : (r.completed o).errCmd = r.errCmd :=
  Regs.finish_errCmd _ o

/-- The engine's step once `ITER` has counted down. -/
theorem Regs.advance_iterated_last (r : Regs) (o : Operation) :
    (r.iterated o r.iter.toNat).advance o = r.completed o := by
  refine Regs.advance_zero o (BitVec.eq_of_toNat_eq ?_)
  rw [Regs.iterated_iter r o le_rfl, Nat.sub_self]
  rfl

/-- R37 (c): an engine that runs has an operation. -/
theorem Regs.Inv.operation {r : Regs} (h : r.Inv) (hp : r.phase = .run) : ∃ o, Operation.ofOp r.op = some o := by
  cases ho : Operation.ofOp r.op with
  | some o => exact ⟨o, rfl⟩
  | none =>
    rcases Operation.ofOp_none ho with h0 | h4
    · have := (h.op_zero h0).1
      simp [h.busy_iff_run.mpr hp] at this
    · exact absurd h.op_le (Nat.not_le.mpr h4)

/-- An operation just accepted, whose iterations end in the working words `w`, ends with them and `ITER` at 0. -/
theorem Regs.completed_accept {r : Regs} {op : BitVec 3} {a b c d : Word} {o : Operation} {w : Working}
    (hw : (o.iteration Config.params r.key)^[d.toNat] ⟨a, b, c⟩ = w) :
    (r.accept op a b c d).completed o = (r.accept op w.v0 w.v1 w.sum 0#32).finish o := by
  subst hw
  simp [Regs.completed, Regs.iterated, Regs.accept, Regs.working]

/-- The iterations of R116 for a count held in a register, from the first `SUM` that acceptance loads (R91). -/
theorem iterate_decIter_toNat (p : Params) (a b : Word) (k : Key) (n : Word) :
    (decIter p k)^[n.toNat] ⟨a, b, n * p.delta⟩ = decWork p a b k n.toNat := by
  simp [decWork]

/-- An accepted operation ends in the registers of the big-step view. -/
theorem acceptEffect_completed {i : Instr} (hi : i ≠ .nop) (r : Regs) :
    ∃ o, Operation.ofOp (acceptEffect i r).op = some o ∧ (acceptEffect i r).completed o = bigStep i r := by
  cases i with
  | nop => contradiction
  | encrypt => exact ⟨.encrypt, rfl, Regs.completed_accept (o := .encrypt) rfl⟩
  | decrypt => exact ⟨.decrypt, rfl, Regs.completed_accept (o := .decrypt) (iterate_decIter_toNat ..)⟩
  | toToken => exact ⟨.toToken, rfl, Regs.completed_accept (o := .toToken) rfl⟩
  | fromToken => exact ⟨.fromToken, rfl, Regs.completed_accept (o := .fromToken) (iterate_decIter_toNat ..)⟩

theorem bigStep_busy {i : Instr} (hi : i ≠ .nop) (r : Regs) : (bigStep i r).busy = false := by
  obtain ⟨o, -, h⟩ := acceptEffect_completed hi r
  rw [← h, Regs.completed_busy]

/-! ### Polling (R78, log 7) -/

theorem step_wait_idle {s : State} {es : List Event} (hs : s.script = .wait :: es) (hb : s.regs.busy = false) :
    step s = .next ((s.withScript es).record 9#4 (statusWord s.regs)) := by
  rw [step_event hs, runEvent, poll_idle (s := s.withScript es) hb, State.withScript_regs]

theorem step_wait_busy {s : State} {es : List Event} (hs : s.script = .wait :: es) (hb : s.regs.busy = true) :
    step s = .next ((s.record 9#4 (statusWord s.regs)).withScript (.engine :: .wait :: es)) := by
  rw [step_event hs, runEvent, poll_busy (s := s.withScript es) hb]
  rfl

section
variable {r : Regs} {o : Operation} (hb : r.busy = true) (hp : r.phase = .run) (ho : Operation.ofOp r.op = some o)
include hb hp ho

/-- A read of STATUS while the engine runs, and the engine's step after it. -/
theorem stepN_poll (es : List Event) (observed : List ReadRecord) (free : Nat) :
    stepN 2 ⟨r, .wait :: es, observed, free⟩ =
      .next ⟨r.advance o, .wait :: es, ⟨9#4, statusWord r⟩ :: observed, free⟩ := by
  rw [stepN_succ_of_step 1 (step_wait_busy rfl hb)]
  exact stepN_succ_of_step 0 (step_engine (.inr rfl) hp ho)

/-- The polls during `k` iteration steps all read the same STATUS. -/
theorem stepN_poll_iterated {k : Nat} (hk : k ≤ r.iter.toNat) (es : List Event) (observed : List ReadRecord)
    (free : Nat) :
    stepN (2 * k) ⟨r, .wait :: es, observed, free⟩ =
      .next ⟨r.iterated o k, .wait :: es, List.replicate k ⟨9#4, statusWord r⟩ ++ observed, free⟩ := by
  induction k with
  | zero => simp
  | succ k ih =>
    rw [Nat.mul_succ, stepN_add 2 (ih (by omega)), stepN_poll (r := r.iterated o k) hb hp ho,
      Regs.advance_iterated r o (Nat.lt_of_succ_le hk), List.replicate_succ]
    rfl

end

/-! ### Operands written word by word (R53) -/

theorem Regs.writeData_key_words (r : Regs) (k : Key) :
    (((r.writeData 0#4 k[0]).writeData 1#4 k[1]).writeData 2#4 k[2]).writeData 3#4 k[3] = { r with key := k } := by
  have hk : (((r.key.set 0 k[0]).set 1 k[1]).set 2 k[2]).set 3 k[3] = k := by
    ext j hj : 1
    interval_cases j <;> simp
  exact congrArg (fun key => { r with key }) hk

theorem Regs.writeData_blk_words (r : Regs) (b : Block) :
    (r.writeData 4#4 b[0]).writeData 5#4 b[1] = { r with blk := b } := by
  have hb : (r.blk.set 0 b[0]).set 1 b[1] = b := by
    ext j hj : 1
    interval_cases j <;> simp
  exact congrArg (fun blk => { r with blk }) hb

/-! ### Runs of host scripts -/

/-- Presented to a block with registers `r`, the host script runs to its end in `n` steps, leaves the registers `q`
and makes the reads `reads`, newest first. -/
def Runs (script : List Statement) (n : Nat) (r q : Regs) (reads : List ReadRecord) : Prop :=
  ∀ (es : List Event) (observed : List ReadRecord) (free : Nat),
    stepN n ⟨r, scriptEvents script ++ es, observed, free⟩ = .next ⟨q, es, reads ++ observed, free⟩

theorem scriptEvents_append (a b : List Statement) : scriptEvents (a ++ b) = scriptEvents a ++ scriptEvents b :=
  List.flatMap_append

/-- What every expansion of R79 ends with: the command, `wait`, and two reads. -/
def commandAndReads (i : Instr) (x y : SlotName) : List Statement := [.wr .CMD (encode i), .wait, .rd x, .rd y]

namespace Runs

theorem append {a b : List Statement} {m n : Nat} {r q p : Regs} {x y : List ReadRecord} (ha : Runs a m r q x)
    (hb : Runs b n q p y) : Runs (a ++ b) (m + n) r p (y ++ x) := by
  intro es observed free
  rw [scriptEvents_append, List.append_assoc, stepN_add n (ha _ observed free), hb, List.append_assoc]

/-- A script that is all the outside has listed. -/
theorem whole {script : List Statement} {n : Nat} {s : State} {q : Regs} {reads : List ReadRecord}
    (h : Runs script n s.regs q reads) (hs : s.script = scriptEvents script) :
    stepN n s = .next ⟨q, [], reads ++ s.observed, s.freeReads⟩ := by
  rw [← h [] s.observed s.freeReads, List.append_nil, ← hs]

theorem wr (slot : SlotName) (v : Word) (r : Regs) : Runs [.wr slot v] 1 r (r.hostWritten slot.idx v) [] :=
  fun _ _ _ => stepN_succ_of_step 0 (step_write rfl)

theorem rd (slot : SlotName) (r : Regs) : Runs [.rd slot] 1 r r [⟨slot.idx, hostRead r slot.idx⟩] :=
  fun _ _ _ => stepN_succ_of_step 0 (step_read rfl)

/-- A write to a data slot while idle. -/
theorem wr_data {slot : SlotName} {r : Regs} (hb : r.busy = false) (h : slot.idx.toNat ≤ 7) (v : Word) :
    Runs [.wr slot v] 1 r (r.writeData slot.idx v) [] :=
  hostWritten_data hb h v ▸ wr slot v r

theorem command {r : Regs} (hb : r.busy = false) (i : Instr) :
    Runs [.wr .CMD (encode i)] 1 r (acceptEffect i r) [] :=
  hostWritten_command hb (decode_encode i) ▸ wr .CMD (encode i) r

/-- `wait` while idle reads STATUS once. -/
theorem wait_idle {r : Regs} (hb : r.busy = false) : Runs [.wait] 1 r r [⟨9#4, statusWord r⟩] :=
  fun _ _ _ => stepN_succ_of_step 0 (step_wait_idle rfl hb)

/-- `wait` while an operation runs polls before each iteration step, before the finish step and after it. -/
theorem wait_running {r : Regs} {o : Operation} (hb : r.busy = true) (hp : r.phase = .run)
    (ho : Operation.ofOp r.op = some o) :
    Runs [.wait] (2 * (r.iter.toNat + 1) + 1) r (r.completed o)
      (⟨9#4, statusWord (r.completed o)⟩ :: List.replicate (r.iter.toNat + 1) ⟨9#4, statusWord r⟩) := by
  intro es observed free
  have hiter := stepN_poll_iterated hb hp ho le_rfl es observed free
  have hlast := stepN_poll (r := r.iterated o r.iter.toNat) hb hp ho es
    (List.replicate r.iter.toNat ⟨9#4, statusWord r⟩ ++ observed) free
  rw [Regs.advance_iterated_last] at hlast
  have hread := wait_idle (Regs.completed_busy r o) es
    (⟨9#4, statusWord r⟩ :: (List.replicate r.iter.toNat ⟨9#4, statusWord r⟩ ++ observed)) free
  exact (stepN_add 1 ((stepN_add 2 hiter).trans hlast)).trans hread

/-- A command written while idle, and `wait`: the whole operation. -/
theorem operation {i : Instr} (hi : i ≠ .nop) {r : Regs} (hb : r.busy = false) :
    ∃ n polls, Runs [.wr .CMD (encode i), .wait] n r (bigStep i r) polls := by
  obtain ⟨hbusy, -, -, hrun⟩ := acceptEffect_starts hi r
  obtain ⟨o, ho, hend⟩ := acceptEffect_completed hi r
  exact ⟨_, _, hend ▸ (command hb i).append (wait_running hbusy hrun ho)⟩

theorem writeKey {r : Regs} (hb : r.busy = false) (k : Key) :
    Runs (Machine.writeKey k) 4 r { r with key := k } [] := by
  have h := (((wr_data (slot := .KEY0) hb (by decide) k[0]).append
    (wr_data (slot := .KEY1) (by simpa) (by decide) k[1])).append
    (wr_data (slot := .KEY2) (by simpa) (by decide) k[2])).append
    (wr_data (slot := .KEY3) (by simpa) (by decide) k[3])
  exact Regs.writeData_key_words r k ▸ h

theorem writeBlock {r : Regs} (hb : r.busy = false) (b : Block) :
    Runs [.wr .BLK0 b[0], .wr .BLK1 b[1]] 2 r { r with blk := b } [] := by
  have h := (wr_data (slot := .BLK0) hb (by decide) b[0]).append
    (wr_data (slot := .BLK1) (by simpa) (by decide) b[1])
  exact Regs.writeData_blk_words r b ▸ h

/-- The shape of every expansion of R79: the operands, the command, `wait`, and two reads. -/
theorem call {pre : List Statement} {m : Nat} {r p : Regs} (hpre : Runs pre m r p []) (hb : p.busy = false)
    {i : Instr} (hi : i ≠ .nop) (x y : SlotName) :
    ∃ n polls, Runs (pre ++ commandAndReads i x y) n r (bigStep i p)
      (⟨y.idx, hostRead (bigStep i p) y.idx⟩ :: ⟨x.idx, hostRead (bigStep i p) x.idx⟩ :: polls) := by
  obtain ⟨n, polls, hop⟩ := operation hi hb
  exact ⟨_, _, hpre.append (hop.append ((rd x _).append (rd y _)))⟩

end Runs

/-- Settles O49: an idle block reads STATUS once; a running one polls through its operation. -/
theorem waitTerminates : Obligations.WaitTerminates := by
  intro ⟨r, _, observed, free⟩ rest hinv hs
  obtain rfl : _ = Event.wait :: rest := hs
  cases hp : r.phase with
  | idle =>
    have hb : r.busy = false := by simpa [hp] using hinv.busy_iff_run
    rw [Regs.remaining, hp]
    exact ⟨_, Runs.wait_idle hb rest observed free, rfl, hb, ⟨_, rfl⟩, by simpa, rfl, rfl, rfl, rfl⟩
  | run =>
    obtain ⟨o, ho⟩ := hinv.operation hp
    rw [Regs.remaining, hp]
    refine ⟨_, Runs.wait_running (hinv.busy_iff_run.mpr hp) hp ho rest observed free, rfl, rfl, ⟨_, rfl⟩, ?_⟩
    simp

/-! ### The pseudo-instructions (R79) -/

/-- What a call that is all the outside has listed leaves: nothing listed, its two reads, and an idle block with the
error flags of the registers `p` its operands were written to. -/
theorem call_returns {pre : List Statement} {m : Nat} {s : State} {p : Regs} {i : Instr} {x y : SlotName}
    (hpre : Runs pre m s.regs p []) (hb : p.busy = false) (hi : i ≠ .nop)
    (hs : s.script = scriptEvents (pre ++ commandAndReads i x y)) :
    ∃ n t older, stepN n s = .next t ∧ t.script = [] ∧
      t.observed = ⟨y.idx, hostRead (bigStep i p) y.idx⟩ :: ⟨x.idx, hostRead (bigStep i p) x.idx⟩ :: older ∧
      t.regs.busy = false ∧ t.regs.errBusy = p.errBusy ∧ t.regs.errCmd = p.errCmd := by
  obtain ⟨n, polls, h⟩ := hpre.call hb hi x y
  exact ⟨n, _, polls ++ s.observed, h.whole hs, rfl, rfl, bigStep_busy hi p, bigStep_errBusy i p,
    bigStep_errCmd i p⟩

/-- The operands of `encrypt` and `decrypt`. -/
theorem runs_cipherOperands {r : Regs} (hb : r.busy = false) (b : Block) (k : Key) (rounds : Word) :
    Runs (writeKey k ++ [Statement.wr .BLK0 b[0], .wr .BLK1 b[1], .wr .ROUNDS rounds]) 7 r
      { r with key := k, blk := b, rounds := rounds } [] :=
  have hblk := Runs.writeBlock (r := { r with key := k }) hb b
  have hrounds := Runs.wr_data (slot := .ROUNDS) (r := { r with key := k, blk := b }) hb (by decide) rounds
  (Runs.writeKey hb k).append (hblk.append hrounds)

/-- The operands of `to_token`. -/
theorem runs_toTokenOperands {r : Regs} (hb : r.busy = false) (id : Word) (k : Key) :
    Runs (writeKey k ++ [Statement.wr .IDENT id]) 5 r { r with key := k, ident := id } [] :=
  (Runs.writeKey hb k).append (Runs.wr_data (slot := .IDENT) (r := { r with key := k }) hb (by decide) id)

/-- The operands of `from_token`. -/
theorem runs_fromTokenOperands {r : Regs} (hb : r.busy = false) (b : Block) (k : Key) :
    Runs (writeKey k ++ [Statement.wr .BLK0 b[0], .wr .BLK1 b[1]]) 6 r { r with key := k, blk := b } [] :=
  (Runs.writeKey hb k).append (Runs.writeBlock (r := { r with key := k }) hb b)

/-! ### What the calls read last -/

theorem hostRead_bigStep_encrypt (r : Regs) :
    hostRead (bigStep .encrypt r) 4#4 = (encrypt Config.params r.blk[0] r.blk[1] r.key r.rounds.toNat).1 ∧
    hostRead (bigStep .encrypt r) 5#4 = (encrypt Config.params r.blk[0] r.blk[1] r.key r.rounds.toNat).2 := by
  simp [bigStep_encrypt_blk]

theorem hostRead_bigStep_decrypt (r : Regs) :
    hostRead (bigStep .decrypt r) 4#4 = (decrypt Config.params r.blk[0] r.blk[1] r.key r.rounds.toNat).1 ∧
    hostRead (bigStep .decrypt r) 5#4 = (decrypt Config.params r.blk[0] r.blk[1] r.key r.rounds.toNat).2 := by
  simp [bigStep_decrypt_blk]

theorem hostRead_bigStep_toToken (r : Regs) :
    hostRead (bigStep .toToken r) 4#4 = (toToken Config.params r.ident r.key).1 ∧
    hostRead (bigStep .toToken r) 5#4 = (toToken Config.params r.ident r.key).2 := by
  simp [bigStep_toToken_blk]

theorem hostRead_bigStep_fromToken (r : Regs) :
    hostRead (bigStep .fromToken r) 10#4 = (fromToken Config.params r.blk[0] r.blk[1] r.key).1 ∧
    (hostRead (bigStep .fromToken r) 9#4)[2] = (fromToken Config.params r.blk[0] r.blk[1] r.key).2 := by
  simp [bigStep_fromToken_result, bigStep_fromToken_chkOk]

/-- Settles O51: both expansions are the cipher's operands and `commandAndReads`, by definition. -/
theorem cipherCallsReturnTheirResults : Obligations.CipherCallsReturnTheirResults := by
  intro s b k rounds _ hb
  have hpre := runs_cipherOperands hb b k rounds
  refine ⟨fun hs => ?_, fun hs => ?_⟩
  · obtain ⟨h4, h5⟩ := hostRead_bigStep_encrypt { s.regs with key := k, blk := b, rounds := rounds }
    rw [← h4, ← h5]
    exact call_returns hpre hb (i := .encrypt) (x := .BLK0) (y := .BLK1) (by decide) hs
  · obtain ⟨h4, h5⟩ := hostRead_bigStep_decrypt { s.regs with key := k, blk := b, rounds := rounds }
    rw [← h4, ← h5]
    exact call_returns hpre hb (i := .decrypt) (x := .BLK0) (y := .BLK1) (by decide) hs

/-- Settles O52: both expansions are the codec's operands and `commandAndReads`, by definition. -/
theorem codecCallsReturnTheirResults : Obligations.CodecCallsReturnTheirResults := by
  intro s b k id _ hb
  refine ⟨fun hs => ?_, fun hs => ?_⟩
  · obtain ⟨h4, h5⟩ := hostRead_bigStep_toToken { s.regs with key := k, ident := id }
    rw [← h4, ← h5]
    exact call_returns (runs_toTokenOperands hb id k) hb (i := .toToken) (x := .BLK0) (y := .BLK1) (by decide) hs
  · obtain ⟨h10, hvalid⟩ := hostRead_bigStep_fromToken { s.regs with key := k, blk := b }
    obtain ⟨m, t, older, hrun, hscript, hobserved, hflags⟩ :=
      call_returns (runs_fromTokenOperands hb b k) hb (i := .fromToken) (x := .RESULT) (y := .STATUS) (by decide) hs
    rw [← h10, ← hvalid]
    exact ⟨m, t, older, _, hrun, hscript, hobserved, rfl, hflags⟩

end Sys2Proof.Machine
end

section
/-! PROOFS for the family 40_sequencer.md: acceptance and the writes that are dropped while busy (R90 to R92, R97), the
engine's turn (R93, R95), and whole operations, alone and with host transactions between their steps (R96, R98). -/

namespace Sys2Proof.Machine

/-! ### Commands and writes, idle and busy (R91, R92, R97) -/

/-- Settles O23. -/
theorem nopChangesNothingWhileIdle : Obligations.NopChangesNothingWhileIdle :=
  fun _ => ⟨exec_idle .nop, exec_busy .nop⟩

/-- Settles O24. -/
theorem commandsWhileBusyAreDropped : Obligations.CommandsWhileBusyAreDropped :=
  fun i _ => exec_busy i

/-- Settles O13: slots 0 to 8 drop the write, the others ignore it, and only STATUS shows `ERR_BUSY`. -/
theorem writeWhileBusyIsDropped : Obligations.WriteWhileBusyIsDropped := by
  intro s idx v rest hs hb
  refine ⟨fun h8 => ?dropped, fun h9 => ?ignored, ?others⟩
  case dropped => rw [step_write hs, hostWritten_busy hb, if_pos h8, Regs.flagBusyError]
  case ignored => rw [step_write hs, hostWritten_readonly h9, State.withScript_withRegs_self]
  case others => exact fun j => hostRead_congr (r := s.regs) (q := s.regs.flagBusyError) rfl rfl rfl rfl rfl rfl

/-- Settles O22: the rows of `acceptEffect`, with R130's order of the checksum and R91's literal for `64 *32 DELTA`. -/
theorem acceptanceLoadsWorkingRegisters : Obligations.AcceptanceLoadsWorkingRegisters := by
  intro s hb
  refine ⟨exec_idle .encrypt hb, exec_idle .decrypt hb, ?toToken, ?fromToken⟩
  case toToken =>
    rw [exec_idle .toToken hb, acceptEffect, chk_eq]
    rfl
  case fromToken =>
    have hsum : Config.params.codecRounds * Config.params.delta = 0x8DDE6E40#32 := by decide
    rw [exec_idle .fromToken hb, acceptEffect, hsum]
    rfl

/-- Settles O7: of the causes of a step other than reset, only the finish step clears `BUSY`, and it sets `DONE`. -/
theorem operationEndsOnlyByFinishOrReset : Obligations.OperationEndsOnlyByFinishOrReset := by
  intro s t h hb ht
  cases hr : s.resetNext with
  | true => exact .inl rfl
  | false =>
    obtain ⟨c, hc, hregs⟩ := step_explained h hr
    have ha := State.acceptsNext_of_busy hb
    have hf : s.finishNext = true := by
      rw [hregs, StepCause.effect_busy hc] at ht
      simpa [ha, hb] using ht
    refine .inr ⟨hf, ?_⟩
    rw [hregs, StepCause.effect_done hc]
    simp [ha, hf]

/-! ### The engine's turn (R93, R95) -/

/-- A step of a running engine shows: the finish step in `PHASE`, an iteration step in `ITER`. -/
theorem Regs.advance_ne {r : Regs} (hp : r.phase = .run) (o : Operation) : r.advance o ≠ r := by
  intro h
  by_cases hi : r.iter = 0#32
  · have hphase := congrArg Regs.phase h
    rw [Regs.advance_zero o hi, Regs.finish_phase, hp] at hphase
    contradiction
  · have hiter := congrArg Regs.iter h
    rw [Regs.advance_nonzero o hi, Regs.iterate_iter] at hiter
    bv_omega

/-- Settles O25: by the invariant a running engine has an operation, so it has a step. -/
theorem engineMovesExactlyWhileRunning : Obligations.EngineMovesExactlyWhileRunning := by
  refine fun s hinv => ⟨engineStep_idle, fun hp => ?_⟩
  obtain ⟨o, ho⟩ := hinv.operation hp
  exact ⟨_, engineStep_run hp ho, Regs.advance_ne hp o, rfl⟩

/-- The comparison of R132 with the constants of R6 in R130's order. -/
theorem checksumOk_params_iff {a b : Word} :
    checksumOk Config.params a b = true ↔ 0x18BA3187#32 * a + 0x1AC2F23B#32 = b := by
  rw [checksumOk_iff, chk_eq]
  rfl

theorem engineStep_finish {s : State} {o : Operation} (hp : s.regs.phase = .run) (hi : s.regs.iter = 0#32)
    (ho : Operation.ofOp s.regs.op = some o) : engineStep s = .next (s.withRegs (s.regs.finish o)) := by
  rw [engineStep_run hp ho, Regs.advance_zero o hi]

/-- Settles O28: operations 1 to 3 deliver `BLK`; for operation 4 the two outcomes of `Chk(V0) = V1`. -/
theorem finishStepDelivers : Obligations.FinishStepDelivers := by
  intro s hp hi
  refine ⟨fun hop => ?block, fun hop hmatch => ?accepted, fun hop hmatch => ?rejected⟩
  case block =>
    rcases hop with hop | hop | hop
    · exact engineStep_finish (o := .encrypt) hp hi (by rw [hop]; rfl)
    · exact engineStep_finish (o := .decrypt) hp hi (by rw [hop]; rfl)
    · exact engineStep_finish (o := .toToken) hp hi (by rw [hop]; rfl)
  all_goals rw [engineStep_finish (o := .fromToken) hp hi (by rw [hop]; rfl), Regs.finish, Regs.deliver_fromToken]
  case accepted =>
    have hok : checksumOk Config.params s.regs.v0 s.regs.v1 = true :=
      checksumOk_params_iff.mpr hmatch
    rw [recoveredId_of_ok hok, hok]
  case rejected =>
    have hok : checksumOk Config.params s.regs.v0 s.regs.v1 = false :=
      Bool.eq_false_iff.mpr (mt checksumOk_params_iff.mp hmatch)
    rw [recoveredId_of_not_ok hok, hok]

/-! ### An operation alone (R96) -/

/-- Acceptance loads `ITER` with the operation's iteration count. -/
theorem acceptEffect_iter {i : Instr} (hi : i ≠ .nop) (r : Regs) :
    (acceptEffect i r).iter.toNat = iterations i r := by
  cases i with
  | nop => contradiction
  | _ => rfl

/-- Settles O34: the iteration steps count `ITER` down from `n`, and the next step is the finish step. -/
theorem operationTakesItsIterationsPlusOne : Obligations.OperationTakesItsIterationsPlusOne := by
  intro i s hi hb
  obtain ⟨hbusy, -, -, hrun⟩ := acceptEffect_starts hi s.regs
  obtain ⟨o, ho, -⟩ := acceptEffect_completed hi s.regs
  refine ⟨_, exec_idle i hb, ?_⟩
  rw [← acceptEffect_iter hi]
  refine ⟨fun k hk => ⟨_, stepN_iterated rfl hrun ho hk, hbusy, hrun, ?countdown⟩,
    _, stepN_finish rfl hrun ho, rfl, rfl, rfl⟩
  case countdown => exact Regs.iterated_iter _ o hk

/-! ### Host transactions between the steps of an operation (R92, R98) -/

/-- The registers with `ERR_BUSY` set where `b` says that a write was dropped (R92, R151). -/
def Regs.noteDropped (r : Regs) (b : Bool) : Regs := { r with errBusy := r.errBusy || b }

@[simp] theorem Regs.noteDropped_false (r : Regs) : r.noteDropped false = r := by simp [Regs.noteDropped]

theorem Regs.flagBusyError_eq (r : Regs) : r.flagBusyError = r.noteDropped true := by
  simp [Regs.noteDropped, Regs.flagBusyError]

theorem Regs.noteDropped_noteDropped (r : Regs) (b c : Bool) :
    (r.noteDropped b).noteDropped c = r.noteDropped (b || c) := by
  simp [Regs.noteDropped, Bool.or_assoc]

/-- The engine neither reads nor writes `ERR_BUSY`. -/
theorem Regs.advance_noteDropped (r : Regs) (b : Bool) (o : Operation) :
    (r.noteDropped b).advance o = (r.advance o).noteDropped b := by
  by_cases hi : r.iter = 0#32
  · rw [Regs.advance_zero o hi, Regs.advance_zero o (r := r.noteDropped b) hi]
    cases o <;> rfl
  · rw [Regs.advance_nonzero o hi, Regs.advance_nonzero o (r := r.noteDropped b) hi]
    rfl

/-- One transition that R98 lets interleave, taken while an operation runs: an engine step advances the operation, a
read changes nothing, and a write is dropped. -/
theorem step_plain_running {s : State} {o : Operation} {e : Event} {es : List Event} (hs : s.script = e :: es)
    (he : e.isPlain = true) (hb : s.regs.busy = true) (hp : s.regs.phase = .run)
    (ho : Operation.ofOp s.regs.op = some o) :
    ∃ t, step s = .next t ∧ t.script = es ∧
      t.regs = (if e = .engine then s.regs.advance o else s.regs).noteDropped e.writesSlot0to8 := by
  cases e with
  | engine => exact ⟨_, step_engine (.inr hs) hp ho, rfl, by simp [Event.writesSlot0to8]⟩
  | host tr =>
    cases tr with
    | read idx => exact ⟨_, step_read hs, rfl, by simp [Event.writesSlot0to8]⟩
    | write idx v =>
      refine ⟨_, step_write hs, rfl, ?_⟩
      rw [hostWritten_busy hb]
      by_cases h8 : idx.toNat ≤ 8 <;> simp [Event.writesSlot0to8, h8, Regs.flagBusyError_eq]
  | reset p => contradiction
  | wait => contradiction

/-- Under any interleaving, a running operation has done as many iterations as engine steps were taken, and `ERR_BUSY`
has noted the dropped writes. -/
theorem stepN_interleaved {s : State} {o : Operation} (hb : s.regs.busy = true) (hp : s.regs.phase = .run)
    (ho : Operation.ofOp s.regs.op = some o) {es rest : List Event} (hs : s.script = es ++ rest)
    (hplain : ∀ e ∈ es, e.isPlain = true) (hcount : es.count .engine ≤ s.regs.iter.toNat) :
    ∃ t, stepN es.length s = .next t ∧ t.script = rest ∧
      t.regs = (s.regs.iterated o (es.count .engine)).noteDropped (es.any fun e => e.writesSlot0to8) := by
  induction es using List.reverseRecOn generalizing rest with
  | nil => exact ⟨s, rfl, hs, by simp⟩
  | append_singleton es e ih =>
    rw [List.count_append, List.count_singleton] at hcount
    obtain ⟨t, hrun, hscript, hregs⟩ := ih (rest := e :: rest) (by simpa using hs)
      (fun x hx => hplain x (List.mem_append_left _ hx)) (by omega)
    obtain ⟨u, hstep, huscript, huregs⟩ := step_plain_running (o := o) hscript (hplain e (by simp))
      (by rw [hregs]; exact hb) (by rw [hregs]; exact hp) (by rw [hregs]; exact ho)
    refine ⟨u, ?_, huscript, ?_⟩
    · rw [List.length_append, stepN_add _ hrun]
      exact stepN_succ_of_step 0 hstep
    · rw [huregs, hregs, List.count_append, List.count_singleton, List.any_append, ← Regs.noteDropped_noteDropped]
      by_cases he : e = .engine
      · have hlt : es.count .engine < s.regs.iter.toNat := by simpa [he] using hcount
        simp [he, Regs.advance_noteDropped, Regs.advance_iterated _ o hlt]
      · simp [he]

/-- Settles O33: acceptance, the interleaved iteration steps, and the finish step, which completes the operation
however many dropped writes `ERR_BUSY` has noted. -/
theorem interleavingDoesNotChangeOutcome : Obligations.InterleavingDoesNotChangeOutcome := by
  intro i s es rest hi hb hs hplain hcount
  obtain ⟨hbusy, -, -, hrun⟩ := acceptEffect_starts hi s.regs
  obtain ⟨o, ho, hcompleted⟩ := acceptEffect_completed hi s.regs
  rw [← acceptEffect_iter hi] at hcount
  have haccept := hostWritten_command hb (decode_encode i) ▸ step_write hs
  obtain ⟨t, hsteps, hscript, hregs⟩ := stepN_interleaved
    (s := (s.withScript (es ++ .engine :: rest)).withRegs (acceptEffect i s.regs)) hbusy hrun ho rfl hplain hcount.le
  have hfinish := step_engine (s := t) (.inr hscript) (by rw [hregs]; exact hrun) (by rw [hregs]; exact ho)
  have hwhole := (stepN_succ_of_step _ haccept).trans ((stepN_add 1 hsteps).trans (stepN_succ_of_step 0 hfinish))
  refine ⟨_, hwhole, rfl, ?_⟩
  rw [State.withRegs_regs, hregs, hcount, State.withRegs_regs, Regs.advance_noteDropped,
    Regs.advance_iterated_last, hcompleted, Regs.noteDropped, bigStep_errBusy]

end Sys2Proof.Machine
end

section
/-! PROOFS for the family 41_cipher.md, the cipher as functions: one iteration (R111 to R114), the inverse and
round-trip laws (R122, R123), the accumulator (R115, R116), and the key-index schedule (R124). -/

namespace Sys2Proof.Machine

/-! ### One iteration (R111 to R114) -/

theorem selLo_toNat (s : Word) : (selLo s).toNat = s.toNat % 4 := by
  simp [selLo, BitVec.extractLsb'_toNat]

theorem selHi_toNat (s : Word) : (selHi s).toNat = s.toNat / 2048 % 4 := by
  simp [selHi, BitVec.extractLsb'_toNat, Nat.shiftRight_eq_div_pow]

/-- Settles O38: the parts of one iteration by name, with the constant of R6 for `DELTA`. -/
theorem iterationFormulas : Obligations.IterationFormulas := by
  refine ⟨fun _ => rfl, fun s => ⟨selLo_toNat s, selHi_toNat s⟩, fun key a b s => ?_⟩
  have hsum : (encIter Config.params key ⟨a, b, s⟩).sum = s + 0x9E3779B9#32 := encIter_sum ..
  have hv1 := encIter_v1 Config.params key ⟨a, b, s⟩
  rw [hsum] at hv1
  exact ⟨encIter_v0 .., hsum, hv1, decIter_v1 .., decIter_sum .., decIter_v0 ..⟩

/-! ### Each iteration undoes the other (R122) -/

/-- `DecIter` takes away what `EncIter` added: from `v1` first, while `v0'` and `sum'` are still there, then from
`v0`. -/
theorem decIter_encIter (p : Params) (key : Key) (w : Working) : decIter p key (encIter p key w) = w := by
  have hsum : (decIter p key (encIter p key w)).sum = w.sum := by simp
  have hv1 : (decIter p key (encIter p key w)).v1 = w.v1 := by
    rw [decIter_v1, encIter_v1, BitVec.add_sub_cancel]
  have hv0 : (decIter p key (encIter p key w)).v0 = w.v0 := by
    rw [decIter_v0, hv1, hsum, encIter_v0, BitVec.add_sub_cancel]
  exact Working.ext hv0 hv1 hsum

/-- `EncIter` adds what `DecIter` took away: to `v0` first, then to `v1`. -/
theorem encIter_decIter (p : Params) (key : Key) (w : Working) : encIter p key (decIter p key w) = w := by
  have hsum : (encIter p key (decIter p key w)).sum = w.sum := by simp
  have hv0 : (encIter p key (decIter p key w)).v0 = w.v0 := by
    rw [encIter_v0, decIter_v0, BitVec.sub_add_cancel]
  have hv1 : (encIter p key (decIter p key w)).v1 = w.v1 := by
    rw [encIter_v1, hv0, hsum, decIter_v1, BitVec.sub_add_cancel]
  exact Working.ext hv0 hv1 hsum

/-- What a transform of the working words does to the two halves, from the accumulator `sum`. -/
def onHalves (f : Working → Working) (sum : Word) (x : Word × Word) : Word × Word :=
  ((f ⟨x.1, x.2, sum⟩).v0, (f ⟨x.1, x.2, sum⟩).v1)

/-- An inverse on the working words is one on the halves, started from the accumulator that `f` ends with. -/
theorem onHalves_leftInverse {f g : Working → Working} {c d : Word} (h : Function.LeftInverse g f)
    (hsum : ∀ a b, (f ⟨a, b, c⟩).sum = d) : Function.LeftInverse (onHalves g d) (onHalves f c) := by
  intro ⟨a, b⟩
  have hw : (⟨(f ⟨a, b, c⟩).v0, (f ⟨a, b, c⟩).v1, d⟩ : Working) = f ⟨a, b, c⟩ := by rw [← hsum a b]
  simp only [onHalves, hw, h _]

theorem onHalves_bijective {f g : Working → Working} {c d : Word} (hl : Function.LeftInverse g f)
    (hr : Function.RightInverse g f) (hf : ∀ a b, (f ⟨a, b, c⟩).sum = d) (hg : ∀ a b, (g ⟨a, b, d⟩).sum = c) :
    Function.Bijective (onHalves f c) :=
  ⟨(onHalves_leftInverse hl hf).injective, (onHalves_leftInverse hr hg).surjective⟩

/-- Settles O39. -/
theorem iterationsAreInverse : Obligations.IterationsAreInverse := by
  refine fun p key w => ⟨decIter_encIter p key w, encIter_decIter p key w, ?_, ?_⟩
  · exact onHalves_bijective (d := w.sum + p.delta) (decIter_encIter p key) (encIter_decIter p key)
      (fun _ _ => encIter_sum ..) (by simp)
  · exact onHalves_bijective (d := w.sum - p.delta) (encIter_decIter p key) (decIter_encIter p key)
      (fun _ _ => decIter_sum ..) (by simp)

/-! ### The accumulator and the round trip (R115, R116, R123) -/

theorem iterate_encIter_sum (p : Params) (key : Key) (w : Working) (n : Nat) :
    ((encIter p key)^[n] w).sum = w.sum + BitVec.ofNat 32 n * p.delta := by
  induction n with
  | zero => simp
  | succ n ih =>
    rw [Function.iterate_succ_apply', encIter_sum, ih, BitVec.ofNat_add, BitVec.add_mul, BitVec.one_mul,
      BitVec.add_assoc]

theorem iterate_decIter_sum (p : Params) (key : Key) (w : Working) (n : Nat) :
    ((decIter p key)^[n] w).sum = w.sum - BitVec.ofNat 32 n * p.delta := by
  induction n with
  | zero => simp
  | succ n ih =>
    rw [Function.iterate_succ_apply', decIter_sum, ih, BitVec.ofNat_add, BitVec.add_mul, BitVec.one_mul,
      BitVec.sub_sub]

theorem encWork_sum (p : Params) (a b : Word) (key : Key) (n : Nat) :
    (encWork p a b key n).sum = BitVec.ofNat 32 n * p.delta := by
  rw [encWork, iterate_encIter_sum, BitVec.zero_add]

theorem decWork_sum (p : Params) (a b : Word) (key : Key) (n : Nat) : (decWork p a b key n).sum = 0#32 := by
  rw [decWork, iterate_decIter_sum, BitVec.sub_self]

/-- Settles O41. -/
theorem accumulatorAfterIterations : Obligations.AccumulatorAfterIterations :=
  fun p key a b n => ⟨encWork_sum p a b key n, decWork_sum p a b key n⟩

theorem decrypt_encrypt (p : Params) (key : Key) (n : Nat) (a b : Word) :
    decrypt p (encrypt p a b key n).1 (encrypt p a b key n).2 key n = (a, b) :=
  onHalves_leftInverse (Function.LeftInverse.iterate (decIter_encIter p key) n)
    (fun a b => encWork_sum p a b key n) (a, b)

theorem encrypt_decrypt (p : Params) (key : Key) (n : Nat) (a b : Word) :
    encrypt p (decrypt p a b key n).1 (decrypt p a b key n).2 key n = (a, b) :=
  onHalves_leftInverse (Function.LeftInverse.iterate (encIter_decIter p key) n)
    (fun a b => decWork_sum p a b key n) (a, b)

/-- Settles O40: the inverse iterations, from the accumulator that the others end with. -/
theorem decryptInvertsEncrypt : Obligations.DecryptInvertsEncrypt := by
  refine fun p key n => ⟨decrypt_encrypt p key n, encrypt_decrypt p key n, ?_⟩
  exact Function.bijective_iff_has_inverse.mpr
    ⟨fun y => decrypt p y.1 y.2 key n, fun x => decrypt_encrypt p key n x.1 x.2,
      fun y => encrypt_decrypt p key n y.1 y.2⟩

theorem encrypt_zero (p : Params) (a b : Word) (key : Key) : encrypt p a b key 0 = (a, b) := rfl

theorem decrypt_zero (p : Params) (a b : Word) (key : Key) : decrypt p a b key 0 = (a, b) := by
  rw [decrypt, decWork_zero]

/-! ### The key-index schedule (R124) -/

/-- `DELTA` is 1 modulo 4, so a multiple of it keeps its multiplier's last two bits. -/
theorem selLo_mul_delta (i : Nat) : (selLo (BitVec.ofNat 32 i * Config.params.delta)).toNat = i % 4 := by
  have hdelta : Config.params.delta.toNat = 0x9E3779B9 := rfl
  rw [selLo_toNat, BitVec.toNat_mul, BitVec.toNat_ofNat, hdelta]
  omega

/-- Settles O42: the first clause for every `i`; the table of R124 by evaluation. -/
theorem keyIndexSchedule : Obligations.KeyIndexSchedule := by
  refine ⟨selLo_mul_delta, ?_⟩
  decide

end Sys2Proof.Machine
end

section
/-! PROOFS for the family 41_cipher.md, the cipher on the machine: the iteration steps (R117, R118), the accumulator
while an operation runs (R115, R116), the operations ENCRYPT and DECRYPT (R119 to R121), and their round trip through
host scripts (R123, R179). -/

namespace Sys2Proof.Machine

/-! ### `SUM` and `ITER` of a running operation (R115, R116) -/

/-- The accumulator that R115 and R116 give a running operation, by the iterations `ITER` says are left. -/
def Regs.accumulator (r : Regs) : Operation → Word
  | .encrypt => (r.rounds - r.iter) * Config.params.delta
  | .decrypt => r.iter * Config.params.delta
  | .toToken => (Config.params.codecRounds - r.iter) * Config.params.delta
  | .fromToken => r.iter * Config.params.delta

theorem Regs.sumInv_iff {r : Regs} {o : Operation} (hp : r.phase = .run) (ho : Operation.ofOp r.op = some o) :
    r.SumInv ↔ r.sum = r.accumulator o := by
  rcases Operation.ofOp_some ho with ⟨rfl, hop⟩ | ⟨rfl, hop⟩ | ⟨rfl, hop⟩ | ⟨rfl, hop⟩
  · exact ⟨fun h => h.encrypt_sum hp hop, fun h => ⟨fun _ _ => h, by simp [hop], by simp [hop]⟩⟩
  · exact ⟨fun h => h.decrypt_sum hp (.inl hop), fun h => ⟨by simp [hop], by simp [hop], fun _ _ => h⟩⟩
  · exact ⟨fun h => h.toToken_sum hp hop, fun h => ⟨by simp [hop], fun _ _ => h, by simp [hop]⟩⟩
  · exact ⟨fun h => h.decrypt_sum hp (.inr hop), fun h => ⟨by simp [hop], by simp [hop], fun _ _ => h⟩⟩

/-- One more of the `n` iterations taken, `i` being left before it. -/
theorem sub_sub_one_mul (n i d : Word) : (n - (i - 1#32)) * d = (n - i) * d + d := by grind

/-- An iteration adds `DELTA` to `SUM` or takes it away, and taking 1 from `ITER` does the same to the accumulator. -/
theorem Regs.iterate_sum_of_sum {r : Regs} {o : Operation} (h : r.sum = r.accumulator o) :
    (r.iterate o).sum = (r.iterate o).accumulator o := by
  cases o with
  | encrypt | toToken =>
    simp only [Regs.iterate_sum, Operation.iteration, encIter_sum, Regs.working, h, Regs.accumulator,
      Regs.iterate_rounds, Regs.iterate_iter, sub_sub_one_mul]
  | decrypt | fromToken =>
    simp only [Regs.iterate_sum, Operation.iteration, decIter_sum, Regs.working, h, Regs.accumulator,
      Regs.iterate_iter]
    exact (sub_one_mul r.iter _).symm

theorem Regs.SumInv.iterate {r : Regs} {o : Operation} (h : r.SumInv) (hp : r.phase = .run)
    (ho : Operation.ofOp r.op = some o) : (r.iterate o).SumInv :=
  (Regs.sumInv_iff (r := r.iterate o) hp ho).mpr (Regs.iterate_sum_of_sum ((Regs.sumInv_iff hp ho).mp h))

/-- Every accepted operation loads `SUM` with the accumulator of no iteration taken (R91). -/
theorem acceptEffect_sumInv {i : Instr} (hi : i ≠ .nop) (r : Regs) : (acceptEffect i r).SumInv := by
  cases i with
  | nop => contradiction
  | encrypt => exact (Regs.sumInv_iff (o := .encrypt) rfl rfl).mpr (by simp [acceptEffect, Regs.accumulator])
  | decrypt => exact (Regs.sumInv_iff (o := .decrypt) rfl rfl).mpr rfl
  | toToken => exact (Regs.sumInv_iff (o := .toToken) rfl rfl).mpr (by simp [acceptEffect, Regs.accumulator])
  | fromToken => exact (Regs.sumInv_iff (o := .fromToken) rfl rfl).mpr rfl

theorem Regs.Inv.idle_of_not_busy {r : Regs} (h : r.Inv) (hb : r.busy = false) : r.phase = .idle := by
  cases hp : r.phase with
  | idle => rfl
  | run => simp [h.busy_iff_run.mpr hp] at hb

/-- No cause of a step takes `SUM` and `ITER` out of step. -/
theorem StepCause.effect_sumInv {c : StepCause} {s : State} (hc : c.Explains s) (hinv : s.regs.Inv)
    (h : s.regs.SumInv) : (c.effect s.regs).SumInv := by
  cases c with
  | quiet => exact h
  | busyMisuse => exact ⟨h.encrypt_sum, h.toToken_sum, h.decrypt_sum⟩
  | cmdMisuse => exact ⟨h.encrypt_sum, h.toToken_sum, h.decrypt_sum⟩
  | dataWrite idx v =>
    have hp := hinv.idle_of_not_busy (State.not_busy_of_writesIdle hc.fits)
    exact Regs.sumInv_of_idle ((Regs.writeData_phase ..).trans hp)
  | accept i => exact acceptEffect_sumInv hc.fits s.regs
  | iterate o =>
    have hp : s.regs.phase = .run := by
      have := hc.iterates
      simp_all [State.iteratesNext]
    exact h.iterate hp hc.fits
  | finish o => exact Regs.sumInv_of_idle rfl

/-- Settles O4: a reset cycle ends any operation; any other step has a cause, and no cause breaks the relation. -/
theorem everyStepKeepsAccumulatorInStep : Obligations.EveryStepKeepsAccumulatorInStep := by
  intro s t hinv hsum h
  cases hr : s.resetNext with
  | true =>
    rw [step_reset_regs h hr]
    exact Regs.sumInv_of_idle rfl
  | false =>
    obtain ⟨c, hc, ht⟩ := step_explained h hr
    rw [ht]
    exact StepCause.effect_sumInv hc hinv hsum

/-! ### The iteration steps (R117, R118) -/

theorem engineStep_iterate {s : State} {o : Operation} (hp : s.regs.phase = .run) (hi : s.regs.iter ≠ 0#32)
    (ho : Operation.ofOp s.regs.op = some o) : engineStep s = .next (s.withRegs (s.regs.iterate o)) := by
  rw [engineStep_run hp ho, Regs.advance_nonzero o hi]

/-- Settles O26: operations 1 and 3 iterate with `EncIter`. -/
theorem encryptIterationStep : Obligations.EncryptIterationStep := by
  rintro s hp hi (hop | hop)
  · exact engineStep_iterate (o := .encrypt) hp hi (by rw [hop]; rfl)
  · exact engineStep_iterate (o := .toToken) hp hi (by rw [hop]; rfl)

/-- The accumulator after the last iteration of a decrypting operation is that of `ITER = 0`. -/
theorem Regs.iterate_last_sum {r : Regs} {o : Operation} (h : r.SumInv) (hp : r.phase = .run)
    (ho : Operation.ofOp r.op = some o) (hop : r.op = 2#3 ∨ r.op = 4#3) (hi : (r.iterate o).iter = 0#32) :
    (r.iterate o).sum = 0#32 := by
  rw [(h.iterate hp ho).decrypt_sum hp hop, hi, BitVec.zero_mul]

/-- Settles O27: operations 2 and 4 iterate with `DecIter`; the last iteration leaves the accumulator of `ITER = 0`. -/
theorem decryptIterationStep : Obligations.DecryptIterationStep := by
  intro s hp hi hop
  obtain ⟨o, ho, hdir⟩ : ∃ o, Operation.ofOp s.regs.op = some o ∧
      o.iteration Config.params s.regs.key = decIter Config.params s.regs.key := by
    rcases hop with hop | hop
    · exact ⟨.decrypt, by rw [hop]; rfl, rfl⟩
    · exact ⟨.fromToken, by rw [hop]; rfl, rfl⟩
  have hstep := engineStep_iterate hp hi ho
  refine ⟨?_, fun hsum h1 => ?_⟩
  · rw [hstep, Regs.iterate, hdir, Regs.working]
  · have hlast : (s.regs.iterate o).iter = 0#32 := by rw [Regs.iterate_iter, h1, BitVec.sub_self]
    exact ⟨_, hstep, hlast, Regs.iterate_last_sum hsum hp ho hop hlast⟩

/-! ### ENCRYPT and DECRYPT from acceptance to result (R119 to R121) -/

/-- A command accepted while idle, and the engine alone after it: `iterations + 1` steps to the big-step view. -/
theorem stepN_operation {i : Instr} (hi : i ≠ .nop) (s : State) :
    stepN (iterations i s.regs + 1) ((s.withRegs (acceptEffect i s.regs)).withScript []) =
      .next ((s.withScript []).withRegs (bigStep i s.regs)) := by
  obtain ⟨-, -, -, hrun⟩ := acceptEffect_starts hi s.regs
  obtain ⟨o, ho, hend⟩ := acceptEffect_completed hi s.regs
  rw [← acceptEffect_iter hi, ← hend]
  exact stepN_finish (s := (s.withRegs (acceptEffect i s.regs)).withScript []) rfl hrun ho

/-- Settles O29: row 1 of R91, and the big-step view after the engine's steps, each field by definition. -/
theorem encryptOperation : Obligations.EncryptOperation := by
  intro s hb
  refine ⟨_, exec_idle .encrypt hb, rfl, rfl, rfl, rfl, rfl, rfl, rfl, rfl, _,
    stepN_operation (i := .encrypt) (by decide) s, ?_⟩
  and_intros <;> rfl

/-- Settles O30: row 2 of R91, and the big-step view after the engine's steps, each field by definition. -/
theorem decryptOperation : Obligations.DecryptOperation := by
  intro s hb
  refine ⟨_, exec_idle .decrypt hb, rfl, rfl, rfl, rfl, rfl, rfl, rfl, rfl, _,
    stepN_operation (i := .decrypt) (by decide) s, ?_⟩
  and_intros <;> rfl

theorem block_eta (b : Block) : #v[b[0], b[1]] = b := by
  ext j hj : 1
  interval_cases j <;> rfl

theorem bigStep_done {i : Instr} (hi : i ≠ .nop) (r : Regs) : (bigStep i r).done = true := by
  cases i with
  | nop => contradiction
  | _ => rfl

theorem cipher_of_rounds_zero {i : Instr} (hi : i = .encrypt ∨ i = .decrypt) {r : Regs} (h0 : r.rounds = 0#32) :
    iterations i r = 0 ∧ (acceptEffect i r).sum = 0#32 ∧ (bigStep i r).blk = r.blk := by
  rcases hi with rfl | rfl
  · refine ⟨by simp [iterations_encrypt, h0], rfl, ?_⟩
    rw [bigStep_encrypt_blk, h0, BitVec.toNat_zero, encrypt_zero, block_eta]
  · refine ⟨by simp [iterations_decrypt, h0], by simp [acceptEffect, h0], ?_⟩
    rw [bigStep_decrypt_blk, h0, BitVec.toNat_zero, decrypt_zero, block_eta]

/-- Settles O37: with no iteration to take, the first engine step is the finish step. -/
theorem zeroRoundsIsTheIdentity : Obligations.ZeroRoundsIsTheIdentity := by
  intro i s hi hb h0
  obtain ⟨hcount, hsum, hblk⟩ := cipher_of_rounds_zero hi h0
  have hnop : i ≠ .nop := by rcases hi with rfl | rfl <;> decide
  have hrun := stepN_operation hnop s
  rw [hcount] at hrun
  exact ⟨_, _, exec_idle i hb, (acceptEffect_starts hnop _).1, hsum, hrun, hblk, bigStep_busy hnop _,
    bigStep_done hnop _⟩

/-! ### The round trip on the machine (R123, R179) -/

/-- DECRYPT after ENCRYPT, with `KEY` and `ROUNDS` left as they were. -/
theorem bigStep_decrypt_encrypt_blk (r : Regs) : (bigStep .decrypt (bigStep .encrypt r)).blk = r.blk := by
  simp [bigStep_decrypt_blk, bigStep_encrypt_blk, bigStep_key, bigStep_rounds, decrypt_encrypt, block_eta]

theorem hostRead_bigStep_decrypt_encrypt (r : Regs) :
    hostRead (bigStep .decrypt (bigStep .encrypt r)) 4#4 = r.blk[0] ∧
    hostRead (bigStep .decrypt (bigStep .encrypt r)) 5#4 = r.blk[1] := by
  rw [hostRead_blk0, hostRead_blk1, bigStep_decrypt_encrypt_blk]
  exact ⟨rfl, rfl⟩

theorem Runs.nil (r : Regs) : Runs [] 0 r r [] := fun _ _ _ => rfl

/-- The call of `encrypt`, and then DECRYPT and its reads from the registers it left. -/
theorem runs_cipherRoundTrip {r : Regs} (hb : r.busy = false) (b : Block) (k : Key) (rounds : Word) :
    ∃ n q older, Runs (callEncrypt b k rounds ++ commandAndReads .decrypt .BLK0 .BLK1) n r q
      (⟨5#4, b[1]⟩ :: ⟨4#4, b[0]⟩ :: older) ∧ q.blk = b := by
  obtain ⟨h4, h5⟩ := hostRead_bigStep_decrypt_encrypt { r with key := k, blk := b, rounds := rounds }
  obtain ⟨m, _, henc⟩ := (runs_cipherOperands hb b k rounds).call hb (i := .encrypt) (by decide) .BLK0 .BLK1
  obtain ⟨n, _, hdec⟩ := (Runs.nil _).call (bigStep_busy (i := .encrypt) (by decide) _) (i := .decrypt) (by decide)
    .BLK0 .BLK1
  rw [← h4, ← h5]
  exact ⟨_, _, _, henc.append hdec, bigStep_decrypt_encrypt_blk _⟩

/-- Settles O54: the second half of the script is `commandAndReads`, by definition. -/
theorem cipherRoundTripOnTheMachine : Obligations.CipherRoundTripOnTheMachine := by
  intro s b k rounds _ hb hs
  obtain ⟨n, q, older, hrun, hblk⟩ := runs_cipherRoundTrip hb b k rounds
  exact ⟨n, _, older ++ s.observed, hrun.whole hs, rfl, rfl, hblk⟩

end Sys2Proof.Machine
end

section
/-! PROOFS for the family 42_codec.md: the checksum and its bijection (R130, R140), which tokens are accepted and what
they decode to (R131, R132, R137, R139), and TO_TOKEN and FROM_TOKEN on the machine (R133, R135, R136, R181). -/

namespace Sys2Proof.Machine

/-! ### Which tokens are accepted (R131, R132, R137, R139) -/

theorem checksumOk_eq_false_iff {p : Params} {a b : Word} : checksumOk p a b = false ↔ chk p a ≠ b := by
  simp [checksumOk]

/-- R132, the comparison holding. -/
theorem fromToken_of_match {p : Params} {t0 t1 : Word} {key : Key}
    (h : chk p (decrypt p t0 t1 key p.codecRounds.toNat).1 = (decrypt p t0 t1 key p.codecRounds.toNat).2) :
    fromToken p t0 t1 key = ((decrypt p t0 t1 key p.codecRounds.toNat).1, true) := by
  have hok := checksumOk_iff.mpr h
  rw [fromToken, recoveredId_of_ok hok, hok]

/-- R132, the comparison failing. -/
theorem fromToken_of_mismatch {p : Params} {t0 t1 : Word} {key : Key}
    (h : chk p (decrypt p t0 t1 key p.codecRounds.toNat).1 ≠ (decrypt p t0 t1 key p.codecRounds.toNat).2) :
    fromToken p t0 t1 key = (0#32, false) := by
  have hok := checksumOk_eq_false_iff.mpr h
  rw [fromToken, recoveredId_of_not_ok hok, hok]

theorem fromToken_valid_iff {p : Params} {t0 t1 : Word} {key : Key} :
    (fromToken p t0 t1 key).2 = true ↔
      chk p (decrypt p t0 t1 key p.codecRounds.toNat).1 = (decrypt p t0 t1 key p.codecRounds.toNat).2 :=
  checksumOk_iff

/-- R137: decrypting takes the token back to `(id, Chk(id))`, which passes the comparison. -/
theorem fromToken_toToken (p : Params) (id : Word) (key : Key) :
    fromToken p (toToken p id key).1 (toToken p id key).2 key = (id, true) := by
  have hdec : decrypt p (toToken p id key).1 (toToken p id key).2 key p.codecRounds.toNat = (id, chk p id) :=
    decrypt_encrypt p key _ id (chk p id)
  rw [fromToken_of_match (by rw [hdec]), hdec]

/-- An accepted token decrypts to `(id, Chk(id))`, so encrypting that gives the token back. -/
theorem toToken_fromToken {p : Params} {t0 t1 : Word} {key : Key} (h : (fromToken p t0 t1 key).2 = true) :
    toToken p (fromToken p t0 t1 key).1 key = (t0, t1) := by
  have hchk := fromToken_valid_iff.mp h
  rw [fromToken_of_match hchk, toToken, hchk, encrypt_decrypt]

theorem fromToken_eq_true_iff {p : Params} {t0 t1 id : Word} {key : Key} :
    fromToken p t0 t1 key = (id, true) ↔ toToken p id key = (t0, t1) := by
  constructor
  · intro h
    simpa [h] using toToken_fromToken (congrArg Prod.snd h)
  · intro h
    simpa [h] using fromToken_toToken p id key

/-- Settles O44. -/
theorem tokenDecodesToItsIdentifier : Obligations.TokenDecodesToItsIdentifier := fromToken_toToken

/-- Settles O45: the two outcomes of the comparison, with the round count of R6 for 64. -/
theorem acceptedTokensAreExactlyMadeTokens : Obligations.AcceptedTokensAreExactlyMadeTokens :=
  fun _ _ _ => ⟨fromToken_of_match, fromToken_of_mismatch, fun _ => fromToken_eq_true_iff⟩

/-! ### The checksum's inverse, and the counts (R130, R140) -/

/-- The identifier whose checksum is `c`: `0xA24CC437` is the multiplier's inverse (R140). -/
def chkInverse (c : Word) : Word := 0xA24CC437#32 * (c - Config.params.chkAdd)

theorem chkMul_mul_inverse : Config.params.chkMul * 0xA24CC437#32 = 1#32 := by decide

theorem chkInverse_chk (id : Word) : chkInverse (chk Config.params id) = id := by
  rw [chkInverse, chk_eq, BitVec.add_sub_cancel, ← BitVec.mul_assoc, BitVec.mul_comm _ Config.params.chkMul,
    chkMul_mul_inverse, BitVec.one_mul]

theorem chk_chkInverse (c : Word) : chk Config.params (chkInverse c) = c := by
  rw [chkInverse, chk_eq, ← BitVec.mul_assoc, chkMul_mul_inverse, BitVec.one_mul, BitVec.sub_add_cancel]

theorem chk_bijective : Function.Bijective (chk Config.params) :=
  Function.bijective_iff_has_inverse.mpr ⟨chkInverse, chkInverse_chk, chk_chkInverse⟩

/-- A set with one element for each word. -/
theorem ncard_range_word {α : Type} {f : Word → α} (hf : Function.Injective f) : (Set.range f).ncard = 2 ^ 32 := by
  rw [Set.ncard_range_of_injective hf, Nat.card_eq_fintype_card, ← FinEnum.card_eq_fintypeCard, FinEnum.card_bitVec]

/-- The plaintext blocks that pass the comparison are the graph of `Chk`. -/
theorem ncard_checked_blocks (p : Params) : {x : Word × Word | chk p x.1 = x.2}.ncard = 2 ^ 32 := by
  have hrange : {x : Word × Word | chk p x.1 = x.2} = Set.range fun id => (id, chk p id) := by
    ext ⟨a, b⟩
    simp
  rw [hrange, ncard_range_word fun _ _ h => (Prod.mk.inj h).1]

theorem toToken_injective (p : Params) (key : Key) : Function.Injective fun id => toToken p id key := by
  intro a b (h : toToken p a key = toToken p b key)
  have hdecoded := fromToken_toToken p a key
  rw [h, fromToken_toToken] at hdecoded
  exact (Prod.mk.inj hdecoded).1.symm

/-- The accepted tokens are the tokens made of the identifiers, a different one for each. -/
theorem ncard_accepted_tokens (p : Params) (key : Key) :
    {x : Word × Word | (fromToken p x.1 x.2 key).2 = true}.ncard = 2 ^ 32 := by
  have hrange : {x : Word × Word | (fromToken p x.1 x.2 key).2 = true} = Set.range fun id => toToken p id key := by
    ext x
    constructor
    · exact fun h => ⟨_, toToken_fromToken h⟩
    · rintro ⟨id, rfl⟩
      exact congrArg Prod.snd (fromToken_toToken p id key)
  rw [hrange, ncard_range_word (toToken_injective p key)]

/-- Settles O43. -/
theorem checksumBijectionAndTokenCount : Obligations.ChecksumBijectionAndTokenCount :=
  ⟨chk_eq Config.params, chkMul_mul_inverse, chk_bijective, ncard_checked_blocks Config.params,
    ncard_accepted_tokens Config.params⟩

/-! ### TO_TOKEN and FROM_TOKEN from acceptance to result (R135, R136) -/

/-- Settles O31: row 3 of R91, and the big-step view after the engine's steps. -/
theorem toTokenOperation : Obligations.ToTokenOperation := by
  intro s hb
  have hrun := stepN_operation (i := .toToken) (by decide) s
  rw [iterations_toToken] at hrun
  refine ⟨_, exec_idle .toToken hb, rfl, rfl, rfl, rfl, rfl, rfl, rfl, rfl, _, hrun, ?_⟩
  and_intros <;> rfl

/-- Settles O32: row 4 of R91, with its literal for the first `SUM`, and the big-step view after the engine's
steps. -/
theorem fromTokenOperation : Obligations.FromTokenOperation := by
  intro s hb
  have hrun := stepN_operation (i := .fromToken) (by decide) s
  rw [iterations_fromToken] at hrun
  have hsum : Config.params.codecRounds * Config.params.delta = 0x8DDE6E40#32 := by decide
  refine ⟨_, exec_idle .fromToken hb, rfl, rfl, rfl, rfl, rfl, rfl, hsum, rfl, _, hrun,
    bigStep_fromToken_result s.regs, bigStep_fromToken_chkOk s.regs, ?_⟩
  and_intros <;> rfl

/-! ### Results depend on the operands only (R119, R133) -/

/-- A table word written while idle, and the engine alone after it: the write, the iterations and the finish step. -/
theorem stepN_tableWord {i : Instr} {w : Nat} (hi : i ≠ .nop) (hw : decodeTableWord 32 w = some i) {s : State}
    (hb : s.regs.busy = false) {n : Nat} (hn : iterations i s.regs = n) :
    stepN (n + 2) ((s.withScript []).withFetchWord 32 w) =
      .next ((s.withScript []).withRegs (bigStep i s.regs)) := by
  subst hn
  have haccept : step ((s.withScript []).withFetchWord 32 w) =
      .next ((s.withRegs (acceptEffect i s.regs)).withScript []) := by
    rw [stepRunsTheDecodedCommand.2 _ _ _ _ hw]
    exact exec_idle i hb
  rw [stepN_succ_of_step _ haccept, stepN_operation hi s]

theorem iterations_cipher {i : Instr} (hi : i = .encrypt ∨ i = .decrypt) (r : Regs) :
    iterations i r = r.rounds.toNat := by
  rcases hi with rfl | rfl <;> rfl

theorem bigStep_toToken_blk_congr {r q : Regs} (hkey : r.key = q.key) (hident : r.ident = q.ident) :
    (bigStep .toToken r).blk = (bigStep .toToken q).blk := by
  rw [bigStep_toToken_blk, bigStep_toToken_blk, hkey, hident]

theorem bigStep_fromToken_congr {r q : Regs} (hkey : r.key = q.key) (hblk : r.blk = q.blk) :
    (bigStep .fromToken r).result = (bigStep .fromToken q).result ∧
      (bigStep .fromToken r).chkOk = (bigStep .fromToken q).chkOk := by
  rw [bigStep_fromToken_result, bigStep_fromToken_result, bigStep_fromToken_chkOk, bigStep_fromToken_chkOk, hkey, hblk]
  exact ⟨rfl, rfl⟩

theorem bigStep_cipher_blk_congr {i : Instr} (hi : i = .encrypt ∨ i = .decrypt) {r q : Regs} (hkey : r.key = q.key)
    (hblk : r.blk = q.blk) (hrounds : r.rounds = q.rounds) : (bigStep i r).blk = (bigStep i q).blk := by
  rcases hi with rfl | rfl
  · rw [bigStep_encrypt_blk, bigStep_encrypt_blk, hkey, hblk, hrounds]
  · rw [bigStep_decrypt_blk, bigStep_decrypt_blk, hkey, hblk, hrounds]

/-- Settles O36: each operation runs to its big-step view, which reads the key and the operands. -/
theorem resultsDependOnOperandsOnly : Obligations.ResultsDependOnOperandsOnly := by
  intro s q hs hq hkey
  refine ⟨fun hident => ?toToken, fun hblk => ?fromToken, fun hblk hrounds w hw => ?cipher⟩
  case toToken =>
    have hword : decodeTableWord 32 3 = some .toToken := by decide
    exact ⟨_, _, stepN_tableWord (by decide) hword hs (iterations_toToken _),
      stepN_tableWord (by decide) hword hq (iterations_toToken _), bigStep_toToken_blk_congr hkey hident⟩
  case fromToken =>
    have hword : decodeTableWord 32 4 = some .fromToken := by decide
    exact ⟨_, _, stepN_tableWord (by decide) hword hs (iterations_fromToken _),
      stepN_tableWord (by decide) hword hq (iterations_fromToken _), bigStep_fromToken_congr hkey hblk⟩
  case cipher =>
    obtain ⟨i, hi, hword⟩ : ∃ i, (i = .encrypt ∨ i = .decrypt) ∧ decodeTableWord 32 w = some i := by
      rcases hw with rfl | rfl
      · exact ⟨.encrypt, .inl rfl, by decide⟩
      · exact ⟨.decrypt, .inr rfl, by decide⟩
    have hnop : i ≠ .nop := by rcases hi with rfl | rfl <;> decide
    have hcount : iterations i q.regs = s.regs.rounds.toNat := by rw [iterations_cipher hi, hrounds]
    exact ⟨_, _, stepN_tableWord hnop hword hs (iterations_cipher hi _), stepN_tableWord hnop hword hq hcount,
      bigStep_cipher_blk_congr hi hkey hblk hrounds⟩

/-! ### The round trip on the machine (R137, R181) -/

/-- FROM_TOKEN after TO_TOKEN, with `BLK` and `KEY` left as they were. -/
theorem fromToken_bigStep_toToken (r : Regs) :
    fromToken Config.params (bigStep .toToken r).blk[0] (bigStep .toToken r).blk[1] (bigStep .toToken r).key =
      (r.ident, true) := by
  rw [bigStep_toToken_blk, bigStep_key]
  exact fromToken_toToken Config.params r.ident r.key

/-- What the last two reads find: the identifier, and STATUS with `CHK_OK` set and `BUSY` clear. -/
theorem hostRead_bigStep_fromToken_toToken (r : Regs) :
    hostRead (bigStep .fromToken (bigStep .toToken r)) 10#4 = r.ident ∧
    (hostRead (bigStep .fromToken (bigStep .toToken r)) 9#4)[2] = true ∧
    (hostRead (bigStep .fromToken (bigStep .toToken r)) 9#4)[0] = false := by
  obtain ⟨hresult, hvalid⟩ := hostRead_bigStep_fromToken (bigStep .toToken r)
  rw [hresult, hvalid, fromToken_bigStep_toToken, hostRead_status, statusWord_bit_zero]
  exact ⟨rfl, rfl, bigStep_busy (by decide) _⟩

/-- TO_TOKEN and its reads, and then FROM_TOKEN and its reads from the registers it left. -/
theorem runs_tokenRoundTrip {r : Regs} (hb : r.busy = false) :
    ∃ n q polls v, Runs (commandAndReads .toToken .BLK0 .BLK1 ++ commandAndReads .fromToken .RESULT .STATUS) n r q
      (⟨9#4, v⟩ :: ⟨10#4, r.ident⟩ :: polls) ∧ v[2] = true ∧ v[0] = false := by
  obtain ⟨hresult, hvalid, hbusy⟩ := hostRead_bigStep_fromToken_toToken r
  obtain ⟨_, _, hmake⟩ := (Runs.nil r).call hb (i := .toToken) (by decide) .BLK0 .BLK1
  obtain ⟨_, _, hrecover⟩ := (Runs.nil _).call (bigStep_busy (i := .toToken) (by decide) _) (i := .fromToken)
    (by decide) .RESULT .STATUS
  rw [← hresult]
  exact ⟨_, _, _, _, hmake.append hrecover, hvalid, hbusy⟩

/-- Settles O53: the operands of `to_token`, and then `commandAndReads` twice, by definition. -/
theorem tokenRoundTripOnTheMachine : Obligations.TokenRoundTripOnTheMachine := by
  intro s k id _ hb hs
  obtain ⟨_, _, polls, v, hround, hvalid, hbusy⟩ :=
    runs_tokenRoundTrip (r := { s.regs with key := k, ident := id }) hb
  exact ⟨_, _, polls ++ [] ++ s.observed, v, ((runs_toTokenOperands hb id k).append hround).whole hs, rfl, rfl,
    hvalid, hbusy⟩

end Sys2Proof.Machine
end

section
/-! PROOFS for the family 60_exceptions.md: no step stops under the invariant (R150, R152), the error flags record the
two misuses (R151), and the order of host, engine and reset in one clock cycle (R153). -/

namespace Sys2Proof.Machine

/-! ### No step stops (R150, R152) -/

/-- The state after a host transaction, which every state answers (R51). -/
def State.transacted (s : State) : Transaction → State
  | .read idx => s.record idx (hostRead s.regs idx)
  | .write idx v => s.withRegs (s.regs.hostWritten idx v)

theorem transact_eq (tr : Transaction) (s : State) : transact tr s = .next (s.transacted tr) := by
  cases tr with
  | read idx => rfl
  | write idx v => exact hostWrite_eq idx v s

theorem poll_answers (s : State) : ∃ t, poll s = .next t := by
  cases hb : s.regs.busy with
  | false => exact ⟨_, poll_idle hb⟩
  | true => exact ⟨_, poll_busy hb⟩

/-- The one fault belongs to states outside the invariant (log 6). -/
theorem engineStep_answers {s : State} (h : s.regs.Inv) : ∃ t, engineStep s = .next t := by
  cases hp : s.regs.phase with
  | idle => exact ⟨s, engineStep_idle hp⟩
  | run =>
    obtain ⟨o, ho⟩ := h.operation hp
    exact ⟨_, engineStep_run hp ho⟩

/-- Settles O5: whatever is listed, only the engine's turn could stop, and under the invariant it answers. -/
theorem noStepStopsUnderInvariant : Obligations.NoStepStopsUnderInvariant := by
  intro s hinv
  cases hs : s.script with
  | nil =>
    rw [step_empty hs]
    exact engineStep_answers hinv
  | cons e es =>
    rw [step_event hs]
    cases e with
    | host tr => exact ⟨_, transact_eq tr _⟩
    | engine => exact engineStep_answers (s := s.withScript es) hinv
    | reset p => exact ⟨_, rfl⟩
    | wait => exact poll_answers _

/-! ### The error flags (R151) -/

theorem StepCause.Explains.eq_busyMisuse {c : StepCause} {s : State} (hc : c.Explains s)
    (h : s.busyMisuse = true) : c = .busyMisuse := by
  simpa [hc.busyError] using h

theorem StepCause.Explains.eq_cmdMisuse {c : StepCause} {s : State} (hc : c.Explains s)
    (h : s.cmdMisuse = true) : c = .cmdMisuse := by
  simpa [hc.cmdError] using h

/-- Settles O15: a step has one cause, each misuse is a cause of its own, and its effect is its flag. -/
theorem errorFlagsRecordExactlyMisuse : Obligations.ErrorFlagsRecordExactlyMisuse := by
  intro s t h hr
  obtain ⟨c, hc, ht⟩ := step_explained h hr
  refine ⟨ht ▸ StepCause.effect_errBusy hc, ht ▸ StepCause.effect_errCmd hc, ?exclusive, fun hb => ?busy,
    fun hm => ?command, statusWord_bit_three t.regs, statusWord_bit_four t.regs⟩
  case exclusive =>
    rintro ⟨hb, hm⟩
    cases (hc.eq_busyMisuse hb).symm.trans (hc.eq_cmdMisuse hm)
  case busy => rw [ht, hc.eq_busyMisuse hb, StepCause.effect_busyMisuse, Regs.flagBusyError]
  case command => rw [ht, hc.eq_cmdMisuse hm, StepCause.effect_cmdMisuse, Regs.flagCmdError]

/-! ### What the engine's step does not look at (R64, R92) -/

theorem Regs.advance_errBusy (r : Regs) (o : Operation) : (r.advance o).errBusy = r.errBusy := by
  by_cases hi : r.iter = 0#32
  · rw [Regs.advance_zero o hi, Regs.finish_errBusy]
  · rw [Regs.advance_nonzero o hi, Regs.iterate_errBusy]

theorem engineStep_errBusy {s t : State} (h : engineStep s = .next t) : t.regs.errBusy = s.regs.errBusy := by
  rcases engineStep_cases h with ⟨-, rfl⟩ | ⟨o, -, -, rfl⟩
  · rfl
  · exact Regs.advance_errBusy s.regs o

theorem engineStep_observed {s t : State} (h : engineStep s = .next t) : t.observed = s.observed := by
  rcases engineStep_cases h with ⟨-, rfl⟩ | ⟨o, -, -, rfl⟩ <;> rfl

/-- A read before the engine's step changes nothing of it. -/
theorem engineStep_record {s t : State} (h : engineStep s = .next t) (idx : SlotIdx) (v : Word) :
    engineStep (s.record idx v) = .next (t.record idx v) := by
  rcases engineStep_cases h with ⟨hp, rfl⟩ | ⟨o, hp, ho, rfl⟩
  · exact engineStep_idle hp
  · exact engineStep_run hp ho

/-- A dropped write before the engine's step changes nothing of it but `ERR_BUSY`. -/
theorem engineStep_noteDropped {s t : State} (h : engineStep s = .next t) (b : Bool) :
    engineStep (s.withRegs (s.regs.noteDropped b)) = .next (t.withRegs (t.regs.noteDropped b)) := by
  rcases engineStep_cases h with ⟨hp, rfl⟩ | ⟨o, hp, ho, rfl⟩
  · exact engineStep_idle hp
  · rw [engineStep_run (s := s.withRegs (s.regs.noteDropped b)) hp ho, State.withRegs_regs, Regs.advance_noteDropped]
    rfl

theorem hostWritten_busy_eq_noteDropped {r : Regs} (hb : r.busy = true) (idx : SlotIdx) (v : Word) :
    r.hostWritten idx v = r.noteDropped (decide (idx.toNat ≤ 8)) := by
  rw [hostWritten_busy hb]
  by_cases h8 : idx.toNat ≤ 8 <;> simp [h8, Regs.flagBusyError_eq]

/-! ### The transitions of one clock cycle (R64, R153) -/

theorem PortSignals.events_of_transaction {p : PortSignals} {tr : Transaction} (hr : p.rst = false)
    (ht : p.transaction = some tr) (b : Bool) : p.events b = .host tr :: if b then [.engine] else [] := by
  simp [PortSignals.events, hr, ht]

theorem PortSignals.events_of_no_transaction {p : PortSignals} (hr : p.rst = false) (ht : p.transaction = none)
    (b : Bool) : p.events b = if b then [.engine] else [] := by
  simp [PortSignals.events, hr, ht]

theorem PortSignals.events_of_reset {p : PortSignals} (hr : p.rst = true) (b : Bool) :
    p.events b = [.reset p.transaction] := by
  simp [PortSignals.events, hr]

theorem stepN_one (s : State) : stepN 1 s = step s := by
  cases h : step s <;> simp [stepN, h]

theorem step_host {s : State} {tr : Transaction} {es : List Event} (hs : s.script = .host tr :: es) :
    step s = .next ((s.withScript es).transacted tr) :=
  (step_event hs).trans (transact_eq tr _)

/-- A transaction neither sees nor changes the transitions still listed. -/
theorem State.transacted_withScript (s : State) (tr : Transaction) (es : List Event) :
    (s.transacted tr).withScript es = (s.withScript es).transacted tr := by
  cases tr <;> rfl

/-- Under the invariant a running engine with `ITER = 0` finishes an operation. -/
theorem engineStep_finish_of_inv {s : State} (h : s.regs.Inv) (hp : s.regs.phase = .run)
    (hi : s.regs.iter = 0#32) : ∃ o, engineStep s = .next (s.withRegs (s.regs.finish o)) := by
  obtain ⟨o, ho⟩ := h.operation hp
  exact ⟨o, engineStep_finish hp hi ho⟩

/-- A transaction and then the engine's step, in one cycle. -/
theorem stepN_host_engine {s : State} {tr : Transaction} {rest : List Event}
    (hs : s.script = .host tr :: .engine :: rest) : stepN 2 s = engineStep ((s.withScript rest).transacted tr) := by
  have hscript : ((s.withScript (.engine :: rest)).transacted tr).script = .engine :: rest := by cases tr <;> rfl
  rw [stepN_succ_of_step 1 (step_host hs), stepN_one, step_event hscript, State.transacted_withScript,
    State.withScript_withScript, runEvent]

/-- A read in a cycle with an engine step. -/
theorem stepN_read_engine {s u : State} {idx : SlotIdx} {rest : List Event}
    (hs : s.script = .host (.read idx) :: .engine :: rest) (hu : engineStep (s.withScript rest) = .next u) :
    stepN 2 s = .next (u.record idx (hostRead s.regs idx)) :=
  (stepN_host_engine hs).trans (engineStep_record hu idx _)

/-- A write while busy in a cycle with an engine step. -/
theorem stepN_write_busy_engine {s u : State} {idx : SlotIdx} {v : Word} {rest : List Event}
    (hs : s.script = .host (.write idx v) :: .engine :: rest) (hb : s.regs.busy = true)
    (hu : engineStep (s.withScript rest) = .next u) :
    stepN 2 s = .next (u.withRegs (u.regs.noteDropped (decide (idx.toNat ≤ 8)))) := by
  rw [stepN_host_engine hs, State.transacted, State.withScript_regs, hostWritten_busy_eq_noteDropped hb]
  exact engineStep_noteDropped hu _

/-- Settles O18: a transaction is answered in the state at the start of the cycle, and neither a read nor a dropped
write changes the engine's step after it, the finish step included. -/
theorem hostComesBeforeEngineInOneCycle : Obligations.HostComesBeforeEngineInOneCycle := by
  refine ⟨fun s p tr rest hr ht => ?order, fun s p rest hr ht => ?noTransaction,
    fun s p idx rest hinv hr ht hs => ?read, fun s p idx v rest hinv hr ht hs hb => ?writeBusy,
    fun s c rest hinv hp hi hs => ?finishWrite, fun s d rest hinv hp hi hs => ?finishRead,
    fun p e hr => PortSignals.events_of_reset hr e⟩
  case order =>
    have hevents := PortSignals.events_of_transaction hr ht
    refine ⟨_, transact_eq tr _, fun hs => ?_, fun hs => ?_⟩
    · rw [hevents] at hs
      exact stepN_host_engine hs
    · rw [hevents] at hs
      exact (stepN_one s).trans (step_host hs)
  case noTransaction =>
    have hevents := PortSignals.events_of_no_transaction hr ht
    refine ⟨hevents false, fun hs => ?_⟩
    rw [hevents] at hs
    exact (stepN_one s).trans (step_event hs)
  case read =>
    rw [PortSignals.events_of_transaction hr ht] at hs
    obtain ⟨u, hu⟩ := engineStep_answers (s := s.withScript rest) hinv
    exact ⟨u, hu, engineStep_observed (s := s.withScript rest) hu, stepN_read_engine hs hu⟩
  case writeBusy =>
    rw [PortSignals.events_of_transaction hr ht] at hs
    obtain ⟨u, hu⟩ := engineStep_answers (s := s.withScript rest) hinv
    exact ⟨u, hu, engineStep_errBusy (s := s.withScript rest) hu, stepN_write_busy_engine hs hb hu⟩
  case finishWrite =>
    obtain ⟨o, hfinish⟩ := engineStep_finish_of_inv (s := s.withScript rest) hinv hp hi
    exact ⟨_, stepN_write_busy_engine hs (hinv.busy_iff_run.mpr hp) hfinish, rfl, rfl, rfl, Bool.or_true _,
      Regs.finish_errCmd s.regs o, Regs.finish_op s.regs o⟩
  case finishRead =>
    obtain ⟨o, hfinish⟩ := engineStep_finish_of_inv (s := s.withScript rest) hinv hp hi
    have hbusy := hinv.busy_iff_run.mpr hp
    have hdone : s.regs.done = false := by simpa [hbusy] using hinv.not_busy_and_done
    exact ⟨_, _, stepN_read_engine hs hfinish, rfl, rfl, (statusWord_bit_zero _).trans hbusy,
      (statusWord_bit_one _).trans hdone, rfl, rfl⟩

end Sys2Proof.Machine
end

section
/-! PROOFS for the family 70_reset_and_hazards.md: a reset cycle from every state (R170, R171), the independence of the
step sequence from the data (R185, R96), and the engine becoming idle (R184, R96). -/

namespace Sys2Proof.Machine

/-! ### A reset cycle (R170, R171) -/

/-- A reset cycle in which no read is presented records nothing. -/
theorem resetCycle_observed_of_not_read {p : Option Transaction} (h : ∀ idx, p ≠ some (.read idx)) (s : State) :
    (resetCycle s p).observed = s.observed := by
  rcases p with _ | (idx | ⟨idx, v⟩)
  · rfl
  · exact absurd rfl (h idx)
  · rfl

/-- A read presented in a reset cycle is recorded with the free value (log 4). -/
theorem resetCycle_observed_of_read (s : State) (idx : SlotIdx) :
    (resetCycle s (some (.read idx))).observed = ⟨idx, Config.freeRdata s.freeReads⟩ :: s.observed := rfl

/-- Settles O6: the reset cycle of any state leaves `Regs.reset`, whose values O1 lists; only a read is recorded. -/
theorem resetCycleFromEveryState : Obligations.ResetCycleFromEveryState := by
  intro s p rest hs
  obtain ⟨key, blk, rounds, ident, result, op, busy, done, chkOk, errBusy, errCmd, v0, v1, sum, iter, phase⟩ :=
    resetValuesOfEveryRegister
  refine ⟨_, step_event hs, resetCycle_script _ p, ?_⟩
  rw [resetCycle_regs]
  refine ⟨key, blk, rounds, ident, result, op, busy, done, chkOk, errBusy, errCmd, v0, v1, sum, iter, phase,
    fun h => resetCycle_observed_of_not_read h _, ?_⟩
  rintro idx rfl
  exact ⟨_, resetCycle_observed_of_read _ idx⟩

/-! ### Control does not depend on data (R185, R96)

`Regs.SameControl` is kept by everything that can happen to the registers, so two runs under one script go in lock
step. -/

namespace Regs.SameControl

variable {r q : Regs}

theorem refl (r : Regs) : r.SameControl r := ⟨rfl, rfl, rfl, rfl, rfl, rfl, rfl, rfl⟩

theorem flagBusyError (h : r.SameControl q) : r.flagBusyError.SameControl q.flagBusyError :=
  { h with errBusy := rfl }

theorem flagCmdError (h : r.SameControl q) : r.flagCmdError.SameControl q.flagCmdError :=
  { h with errCmd := rfl }

/-- Of the slots 0 to 7 only `ROUNDS` is control, and a write to it leaves the written word. -/
theorem writeData (h : r.SameControl q) (idx : SlotIdx) (v : Word) :
    (r.writeData idx v).SameControl (q.writeData idx v) := by
  have hrounds : (r.writeData idx v).rounds = (q.writeData idx v).rounds := by
    by_cases h6 : idx = 6#4
    · subst h6
      rfl
    · have hne : idx.toNat ≠ 6 := fun e => h6 (BitVec.eq_of_toNat_eq e)
      rw [writeData_rounds_of_ne hne, writeData_rounds_of_ne hne, h.rounds]
  constructor <;> simp [hrounds, h.op, h.phase, h.busy, h.done, h.iter, h.errBusy, h.errCmd]

/-- Acceptance loads `ITER` from `ROUNDS` or with a constant (R91). -/
theorem acceptEffect (h : r.SameControl q) (i : Instr) :
    (acceptEffect i r).SameControl (acceptEffect i q) := by
  cases i with
  | nop => exact h
  | encrypt => exact ⟨rfl, rfl, rfl, rfl, h.rounds, h.rounds, h.errBusy, h.errCmd⟩
  | decrypt => exact ⟨rfl, rfl, rfl, rfl, h.rounds, h.rounds, h.errBusy, h.errCmd⟩
  | toToken => exact ⟨rfl, rfl, rfl, rfl, rfl, h.rounds, h.errBusy, h.errCmd⟩
  | fromToken => exact ⟨rfl, rfl, rfl, rfl, rfl, h.rounds, h.errBusy, h.errCmd⟩

theorem hostWritten (h : r.SameControl q) (idx : SlotIdx) (v : Word) :
    (r.hostWritten idx v).SameControl (q.hostWritten idx v) := by
  by_cases h8 : 8 < idx.toNat
  · rwa [hostWritten_readonly h8, hostWritten_readonly h8]
  cases hb : r.busy with
  | true =>
    rw [hostWritten_busy hb, hostWritten_busy (h.busy ▸ hb), if_pos (Nat.not_lt.mp h8), if_pos (Nat.not_lt.mp h8)]
    exact h.flagBusyError
  | false =>
    have hb' : q.busy = false := h.busy ▸ hb
    by_cases hcmd : idx = 8#4
    · subst hcmd
      cases hd : decode v with
      | instr i =>
        rw [hostWritten_command hb hd, hostWritten_command hb' hd]
        exact h.acceptEffect i
      | reserved w =>
        rw [hostWritten_reserved_command hb hd, hostWritten_reserved_command hb' hd]
        exact h.flagCmdError
    · have h7 : idx.toNat ≤ 7 := by bv_omega
      rw [hostWritten_data hb h7, hostWritten_data hb' h7]
      exact h.writeData idx v

/-- Which step the engine takes depends on `ITER` alone, and neither step lets a working word into the control. -/
theorem advance (h : r.SameControl q) (o : Operation) : (r.advance o).SameControl (q.advance o) := by
  by_cases hi : r.iter = 0#32
  · rw [advance_zero o hi, advance_zero o (h.iter ▸ hi)]
    constructor <;> simp [h.op, h.iter, h.rounds, h.errBusy, h.errCmd]
  · rw [advance_nonzero o hi, advance_nonzero o (h.iter ▸ hi)]
    exact { h with iter := congrArg (· - 1#32) h.iter }

end Regs.SameControl

/-- Two states that differ in data and in what the host has read only: the same transitions to come, the same control
registers. -/
structure State.SameControl (s q : State) : Prop where
  script : s.script = q.script
  regs : s.regs.SameControl q.regs

namespace State.SameControl

variable {s q t : State}

theorem withScript (h : s.SameControl q) (es : List Event) : (s.withScript es).SameControl (q.withScript es) :=
  ⟨rfl, h.regs⟩

theorem transacted (h : s.SameControl q) (tr : Transaction) : (s.transacted tr).SameControl (q.transacted tr) := by
  cases tr with
  | read idx => exact ⟨h.script, h.regs⟩
  | write idx v => exact ⟨h.script, h.regs.hostWritten idx v⟩

theorem resetCycle (h : s.SameControl q) (p : Option Transaction) :
    (resetCycle s p).SameControl (resetCycle q p) := by
  constructor
  · simpa using h.script
  · simpa using Regs.SameControl.refl Regs.reset

theorem engineStep (h : s.SameControl q) (ht : engineStep s = .next t) :
    ∃ u, engineStep q = .next u ∧ t.SameControl u := by
  rcases engineStep_cases ht with ⟨hp, rfl⟩ | ⟨o, hp, ho, rfl⟩
  · exact ⟨q, engineStep_idle (h.regs.phase ▸ hp), h⟩
  · exact ⟨_, engineStep_run (h.regs.phase ▸ hp) (h.regs.op ▸ ho), h.script, h.regs.advance o⟩

/-- A poll looks at `BUSY`, which is control. -/
theorem poll (h : s.SameControl q) (ht : poll s = .next t) : ∃ u, poll q = .next u ∧ t.SameControl u := by
  cases hb : s.regs.busy with
  | false =>
    rw [poll_idle hb] at ht
    injection ht with ht
    exact ⟨_, poll_idle (h.regs.busy ▸ hb), ht ▸ ⟨h.script, h.regs⟩⟩
  | true =>
    rw [poll_busy hb] at ht
    injection ht with ht
    exact ⟨_, poll_busy (h.regs.busy ▸ hb), ht ▸ ⟨congrArg (Event.engine :: Event.wait :: ·) h.script, h.regs⟩⟩

theorem runEvent (h : s.SameControl q) {e : Event} (ht : runEvent e s = .next t) :
    ∃ u, runEvent e q = .next u ∧ t.SameControl u := by
  cases e with
  | host tr =>
    have ht := (transact_eq tr s).symm.trans ht
    injection ht with ht
    exact ⟨_, transact_eq tr q, ht ▸ h.transacted tr⟩
  | engine => exact h.engineStep ht
  | reset p =>
    injection ht with ht
    exact ⟨_, rfl, ht ▸ h.resetCycle p⟩
  | wait => exact h.poll ht

theorem step (h : s.SameControl q) (ht : step s = .next t) : ∃ u, step q = .next u ∧ t.SameControl u := by
  cases hs : s.script with
  | nil =>
    rw [step_empty hs] at ht
    rw [step_empty (h.script ▸ hs)]
    exact h.engineStep ht
  | cons e es =>
    rw [step_event hs] at ht
    rw [step_event (h.script ▸ hs)]
    exact (h.withScript es).runEvent ht

end State.SameControl

/-- The first of several steps that answer a next state. -/
theorem stepN_succ_cases {s t : State} {k : Nat} (h : stepN (k + 1) s = .next t) :
    ∃ u, step s = .next u ∧ stepN k u = .next t := by
  cases hs : step s with
  | next u => exact ⟨u, rfl, (stepN_succ_of_step k hs).symm.trans h⟩
  | fault f => simp [stepN, hs] at h
  | refused f => simp [stepN, hs] at h

theorem State.SameControl.stepN {s q t : State} {k : Nat} (h : s.SameControl q) (ht : stepN k s = .next t) :
    ∃ u, stepN k q = .next u ∧ t.SameControl u := by
  induction k generalizing s q with
  | zero =>
    injection ht with ht
    exact ⟨q, rfl, ht ▸ h⟩
  | succ k ih =>
    obtain ⟨s', hs, ht⟩ := stepN_succ_cases ht
    obtain ⟨q', hq, h'⟩ := h.step hs
    rw [stepN_succ_of_step k hq]
    exact ih h' ht

/-- Settles O35, by induction on the number of steps, in lock step. -/
theorem stepSequenceIndependentOfData : Obligations.StepSequenceIndependentOfData := by
  intro s q k t hscript hregs ht
  obtain ⟨u, hu, h⟩ := State.SameControl.stepN ⟨hscript, hregs⟩ ht
  exact ⟨u, hu, h.script.symm, h.regs⟩

/-! ### The engine becomes idle (R184, R96) -/

theorem Regs.remaining_of_idle {r : Regs} (hp : r.phase = .idle) : r.remaining = 0 := by
  simp [Regs.remaining, hp]

theorem Regs.remaining_of_run {r : Regs} (hp : r.phase = .run) : r.remaining = r.iter.toNat + 1 := by
  simp [Regs.remaining, hp]

/-- Every engine step of a running operation is one of those it still needs (R96). -/
theorem Regs.remaining_advance {r : Regs} (hp : r.phase = .run) (o : Operation) :
    (r.advance o).remaining + 1 = r.remaining := by
  rw [Regs.remaining_of_run hp]
  by_cases hi : r.iter = 0#32
  · rw [Regs.advance_zero o hi, Regs.remaining_of_idle (Regs.finish_phase r o), hi]
    rfl
  · rw [Regs.advance_nonzero o hi, Regs.remaining_of_run (r := r.iterate o) hp, Regs.iterate_iter]
    bv_omega

/-- A host write while busy costs the operation nothing (R92). -/
theorem Regs.remaining_hostWritten_busy {r : Regs} (hb : r.busy = true) (idx : SlotIdx) (v : Word) :
    (r.hostWritten idx v).remaining = r.remaining := by
  rw [hostWritten_busy_eq_noteDropped hb]
  rfl

/-- While an operation runs, every step but a poll uses up a listed transition or one of the engine steps that remain,
and lists nothing new. -/
theorem step_running_decreases {s t : State} (hb : s.regs.busy = true) (hp : s.regs.phase = .run)
    (hw : ∀ e ∈ s.script, e ≠ .wait) (h : step s = .next t) :
    t.script.length + t.regs.remaining < s.script.length + s.regs.remaining ∧ ∀ e ∈ t.script, e ≠ .wait := by
  rcases step_cases h with ⟨es, hs, he⟩ | ⟨idx, es, hs, rfl⟩ | ⟨idx, v, es, hs, rfl⟩ | ⟨p, es, hs, rfl⟩ | ⟨es, hs, -⟩
  · obtain ⟨hlen, hrest⟩ : es.length ≤ s.script.length ∧ ∀ e ∈ es, e ∈ s.script := by
      rcases hs with ⟨hs, rfl⟩ | hs
      · simp
      · rw [hs]
        exact ⟨Nat.le_succ _, fun _ => List.mem_cons_of_mem _⟩
    rcases engineStep_cases he with ⟨hidle, -⟩ | ⟨o, -, -, rfl⟩
    · cases hp.symm.trans hidle
    · refine ⟨Nat.add_lt_add_of_le_of_lt hlen ?_, fun e he => hw e (hrest e he)⟩
      exact Nat.lt_of_succ_le (Regs.remaining_advance hp o).le
  · rw [hs, List.forall_mem_cons] at hw
    exact ⟨by simp [hs], hw.2⟩
  · rw [hs, List.forall_mem_cons] at hw
    exact ⟨by simp [hs, Regs.remaining_hostWritten_busy hb], hw.2⟩
  · rw [hs, List.forall_mem_cons] at hw
    rw [resetCycle_script, resetCycle_regs, Regs.remaining_of_idle (r := Regs.reset) rfl, hs]
    exact ⟨Nat.lt_add_right _ (Nat.lt_succ_self _), hw.2⟩
  · exact absurd rfl (hw .wait (by simp [hs]))

/-- Settles O50, by induction on the transitions listed and the engine steps that remain, together. -/
theorem engineBecomesIdle : Obligations.EngineBecomesIdle := by
  intro s hinv hw
  induction hn : s.script.length + s.regs.remaining using Nat.strong_induction_on generalizing s with
  | _ n ih =>
    cases hp : s.regs.phase with
    | idle => exact ⟨0, s, Nat.zero_le _, rfl, hp⟩
    | run =>
      obtain ⟨t, ht⟩ := noStepStopsUnderInvariant s hinv
      obtain ⟨hlt, hwt⟩ := step_running_decreases (hinv.busy_iff_run.mpr hp) hp hw ht
      obtain ⟨k, u, hk, hu, hidle⟩ := ih _ (hn ▸ hlt) t (everyStepKeepsInvariant s t hinv ht).1 hwt rfl
      exact ⟨k + 1, u, by omega, (stepN_succ_of_step k ht).trans hu, hidle⟩

end Sys2Proof.Machine
end
